-- ==== Sys2Proof/Word.lean ====
section
/-!
DEFINITION. The fixed-width words of the TVout scanline engine (spec 00_scope.md R6, decision D1).
-/

namespace Sys2Proof

/-- One byte of the frame-buffer space (R50). -/
abbrev Byte := BitVec 8

/-- A `W` = `ADDR_W` = 16-bit unsigned register or address (R6, D1). -/
abbrev Word := BitVec 16

/-- A format `X` command word (R81), bit 63 the most significant. -/
abbrev CmdWord := BitVec 64

/-- An 8-bit dispatch code of format `P`, `R` or `S` (R82). -/
abbrev Code := BitVec 8

/-- A logical output level or a pixel bit: `true` is 1, asserted (R9, R170). -/
abbrev Level := Bool

end Sys2Proof
end

