-- ==== Sys2Proof/Config.lean ====
section
/-!
DEFINITION. The configuration of the block (spec 00_scope.md R6, R7), fixed before `BEGIN` and changed by no
operation, and the free values: opaque constants with no body that stand for what the spec leaves open.
-/

namespace Sys2Proof

/-- The video standard `std` (R6); its one-bit code is R81's. -/
inductive Standard where
  | ntsc
  | pal
  deriving DecidableEq, Repr

/-- The three output signals (R9, R25). -/
inductive Pin where
  | video
  | sync
  | tone
  deriving DecidableEq, Repr

/-- A Timing Profile record (R7): all non-negative integers. -/
structure Profile where
  linesPerFrame    : Nat
  vsyncEndLine     : Nat
  reloadH          : Nat
  reloadV          : Nat
  syncWidthH       : Nat
  syncWidthV       : Nat
  midLine          : Nat
  startFudge       : Nat
  displayLines     : Nat
  outputStartDelay : Nat
  activeCycles     : Nat
  deriving DecidableEq, Repr

/-- The configuration `CFG` of R6. `periodTable` lists the reload values on which `periodOf` is not the
identity (log 18); the widths `W` and `ADDR_W` are decided (16) and stand in `Word`. -/
structure Config where
  frameW      : Nat
  toneW       : Nat
  strats      : List Nat
  groupSize   : Nat
  ntsc        : Profile
  pal         : Profile
  periodTable : List (Nat × Nat)
  deriving DecidableEq, Repr

namespace Config

/-- `CFG.PROFILE(std)` (R6). -/
def profile (c : Config) : Standard → Profile
  | .ntsc => c.ntsc
  | .pal => c.pal

/-- The profile `TINY` of 95_test_vectors.md section 0. -/
def tiny : Profile where
  linesPerFrame := 12
  vsyncEndLine := 2
  reloadH := 100
  reloadV := 50
  syncWidthH := 8
  syncWidthV := 40
  midLine := 7
  startFudge := 0
  displayLines := 8
  outputStartDelay := 20
  activeCycles := 64

/-- The defaults of R6, with `TINY` for both standards (DESIGN CHOICE, log 1: every profile field is OPEN; no
statement rests on these values). -/
def initial : Config where
  frameW := 32
  toneW := 32
  strats := [3, 4, 5, 6]
  groupSize := 1
  ntsc := tiny
  pal := tiny
  periodTable := []

/-- FREE VALUE (log 3): the byte the memory held at power-on at an address (R50, 93 U8). -/
opaque powerOnByte : Nat → Byte

/-- FREE VALUE (log 8): the level the external tone generator drives on `TONE` (R25, 93 U7), at a step index
and a cycle of the line. -/
opaque toneGenerator : Nat → Nat → Level

/-- FREE VALUE (log 9): the cycle of line 0 at which `TONE_LO` is issued, before it is reduced to the line (R174,
93 U13), at a step index. -/
opaque toneLoCycle : Nat → Nat

/-- FREE VALUE (log 10): the level the `SYNC` latch keeps after a line once two writes have collided (R254, 93 U9), at a
step index. -/
opaque lateSync : Nat → Level

/-- FREE VALUE (log 10): the level of `SYNC` once a late falling write has met the next line's rise (R254, 93 U9), at a
step index and a cycle of the line. -/
opaque collidedSync : Nat → Nat → Level

/-- FREE VALUE (log 11): raw instants within a pixel group, by cost, group size and place (R165, 93 U6);
`Machine.subCycle` bounds them. -/
opaque subRaw : Nat → Nat → Nat → Nat

/-- FREE VALUE (log 12): what `DC10` holds when `P.vsyncEndLine` does not fit 16 bits. -/
opaque vsyncEndLineOverflow : Nat → Word

/-- FREE VALUE (log 13): the cost of a strategy index outside the table, which no reachable state has (R86). -/
opaque costOffTable : Nat → Nat

/-- `CFG.PIN_POLARITY` (R6, log 17): the voltage a logical level of an output stands for; read by no rule. -/
opaque pinPolarity : Pin → Level → Int

end Config

end Sys2Proof
end

