-- ==== Sys2Proof/Machine/State.lean ====
section
/-!
DEFINITION. The state of the block (spec 10_state.md), the reasons a step can stop, and the power-on state
(spec 10_state.md R28, 70_reset_and_hazards.md R240).
-/

namespace Sys2Proof.Machine

/-- `DC0 phase` (R17): the code `0b11` is reserved and written by no operation, so it has no constructor. -/
inductive Phase where
  | vsync
  | blank
  | active
  deriving DecidableEq, Repr

/-- `DC16 syncMode` (R18). -/
inductive SyncMode where
  | h
  | v
  deriving DecidableEq, Repr

/-- `PinWrite(pin, level, t)` (R9, R170). -/
structure PinWrite where
  pin   : Pin
  level : Level
  cycle : Nat
  deriving DecidableEq, Repr

/-- `LineRecord(n, ph0, mode, px, c)` (R175). -/
structure LineRecord where
  line  : Word
  phase : Phase
  mode  : SyncMode
  px    : List Level
  cost  : Nat
  deriving DecidableEq, Repr

/-- The frame-buffer space (R50): the bytes an `FBW` has written, by address. An unlisted address holds its power-on
byte, a free value (log 3). -/
abbrev Memory := List Host.Cell

/-- The one form of a memory: addresses strictly rising, each below 2^16. An unlisted address reads as no listed
byte, so there is no entry to leave out. -/
abbrev Memory.wf (m : Memory) : Prop :=
  (m.map Prod.fst).Pairwise (· < ·) ∧ ∀ a ∈ m.map Prod.fst, a < 2 ^ 16

/-- The state. The names of the Device Context are those of R10 to R23. -/
structure State where
  /-- The configuration (R6): not state of the spec, written by no operation (log 1). -/
  cfg : Config
  phase : Phase
  currentLine : Word
  frameCount : Nat
  renderActive : Bool
  width : Word
  height : Word
  verticalScaleCounter : Word
  verticalScaleConstant : Word
  activeRenderStartLine : Word
  activeRenderEndLine : Word
  vsyncEndLine : Word
  linesPerFrame : Word
  outputStartDelayCycles : Word
  frameBuffer : Word
  currentRenderOffset : Word
  /-- `DC15`, zero-extended to the 4 bits of R82 (log 28). -/
  strategySel : BitVec 4
  syncMode : SyncMode
  toneCountdown : Int
  toneEnable : Bool
  started : Bool
  standard : Standard
  /-- `OUT0 VIDEO` (R25). -/
  outVideo : Level
  /-- `OUT1 SYNC` (R25). -/
  outSync : Level
  /-- `OUT2 TONE` (R25): the block's own latch; the shared pin is `tonePin` (log 8). -/
  outTone : Level
  /-- `t`, the line cycle counter (R26, R226; log 6). -/
  lineCycle : Nat
  /-- The timed pin writes of the current line, in the order issued (R170; log 24). -/
  pinWrites : List PinWrite
  /-- `n`, the line number a handler returns to `TICK` (R130; log 7). -/
  retLine : Word
  /-- `px`, the pixel bits a render and a handler return (R130, R165; log 7). -/
  retPixels : List Level
  /-- The output trace, oldest record first (R26, R175). -/
  trace : List LineRecord
  mem : Memory
  /-- MODEL's own (log 10): the `SYNC_LO` of the line just run falls due at or after the next tick's `SYNC_HI` (R254). -/
  syncLate : Bool
  /-- MODEL's own (log 10): two such writes have met, and the level of `SYNC` is any value from then on (R254, U9). -/
  syncFree : Bool
  /-- MODEL's own (log 4): the command words still to be taken from the command port, in the total order of R60. -/
  commands : List CmdWord
  /-- MODEL's own (log 5): dispatch codes to be run as steps of their own; empty in every run of the hardware. -/
  dispatch : List Code
  /-- MODEL's own (log 25): the index the free values are applied to; every step advances it. -/
  freeIndex : Nat
  deriving DecidableEq, Repr

/-- The block has no exception and no fault (R210), so there is no reason to fault. -/
inductive Fault where
  deriving DecidableEq, Repr

/-- Why an operation is refused (R9 `refuse`): the spec gives it no meaning. Every refusal is safe: nothing can be
proved of what follows. -/
inductive Refusal where
  /-- An arm of `exec` with no meaning yet; no arm raises it. -/
  | notModelled (mnemonic : String)
  /-- A reserved command word (R86), raised by the fetch. -/
  | reservedCommandWord (w : CmdWord)
  /-- A reserved dispatch code (R86, 93 U5): `0x20 + sel` past the table, or a code of no operation. Raised by the fetch,
  and by a render of an index past the table, which no reachable state holds. -/
  | reservedDispatchCode (c : Code)
  /-- A second `BEGIN` (R103, R104 (a)), raised by `BEGIN`. -/
  | beginWhileStarted
  /-- `BEGIN` with operands outside R104 (b) to (f), raised by `BEGIN`. -/
  | beginPrecondition
  /-- `BEGIN` under a configuration outside `Config.Wf` (log 16), raised by `BEGIN`. -/
  | configOutsideSpec
  /-- `SET_TONE` before `BEGIN` (R195), raised by `SET_TONE`. -/
  | setToneBeforeBegin
  deriving DecidableEq, Repr

/-- The state at power-on under a configuration: the "at power-on" column of R28. Registers R28 leaves unspecified
hold zero (DESIGN CHOICE, log 2). -/
def State.powerOn (c : Config) : State where
  cfg := c
  phase := .vsync
  currentLine := 0
  frameCount := 0
  renderActive := false
  width := 0
  height := 0
  verticalScaleCounter := 0
  verticalScaleConstant := 0
  activeRenderStartLine := 0
  activeRenderEndLine := 0
  vsyncEndLine := 0
  linesPerFrame := 0
  outputStartDelayCycles := 0
  frameBuffer := 0
  currentRenderOffset := 0
  strategySel := 0
  syncMode := .h
  toneCountdown := -1
  toneEnable := false
  started := false
  standard := .ntsc
  outVideo := false
  outSync := false
  outTone := false
  lineCycle := 0
  pinWrites := []
  retLine := 0
  retPixels := []
  trace := []
  mem := []
  syncLate := false
  syncFree := false
  commands := []
  dispatch := []
  freeIndex := 0

/-- The machine right after power-on reset (R28, R240), under the configuration of log 1. -/
def State.reset : State := State.powerOn Config.initial

end Sys2Proof.Machine
end

