-- ==== Sys2Proof/Machine/Flags.lean ====
section
/-!
DEFINITION. The flag computations of the block: the tone countdown and its enable, and `renderActive`
(spec 10_state.md R21 to R23; 43_frame_and_tone.md R190, R191, R195). There are no condition codes (R29).
-/

namespace Sys2Proof.Machine

/-- R190, R191: the countdown after a frame boundary; only a positive value is decremented. -/
def toneCountdownAfter (n : Int) : Int := if 0 < n then n - 1 else n

/-- R190: the boundary stops the tone when the countdown, after the decrement, is 0. -/
def toneStops (n : Int) : Bool := decide (toneCountdownAfter n = 0)

/-- R195: `SET_TONE n` enables the tone unless `n` is 0. -/
def toneEnableOf (n : Int) : Bool := decide (n ≠ 0)

/-- R21: `renderActive` is 1 exactly in phase `ACTIVE`. -/
def renderActiveIn : Phase → Bool
  | .vsync => false
  | .blank => false
  | .active => true

end Sys2Proof.Machine
end

