-- ==== Sys2Proof/Machine/Operands.lean ====
section
/-!
DEFINITION. The quantities an operation reads: profile fields, row geometry, fetch addresses, pixel bits, strategy
costs and the instants of a line (spec 20_memory.md R52, R53; 40_begin_and_select.md R109; 42_render_and_pins.md
R160 to R177). All arithmetic is on unbounded integers (R9).
-/

namespace Sys2Proof.Machine

/-- R9: `ceil(a / b)`. -/
def ceilDiv (a b : Nat) : Nat := (a + b - 1) / b

/-- The 2-bit code of a phase (R17, D2). -/
def phaseCode : Phase → BitVec 2
  | .vsync => 0b00#2
  | .blank => 0b01#2
  | .active => 0b10#2

/-- The 1-bit code of a sync mode (R18). -/
def syncModeCode : SyncMode → BitVec 1
  | .h => 0#1
  | .v => 1#1

/-- The 2-bit code of a pin (R82). -/
def pinCode : Pin → BitVec 2
  | .video => 0b00#2
  | .sync => 0b01#2
  | .tone => 0b10#2

/-- The dispatch code `000100pp` of the handler of a phase (R82). -/
def handlerCode (p : Phase) : Code := 0b000100#6 ++ phaseCode p

/-- The dispatch code `0010ssss` of a strategy (R82). -/
def renderCode (sel : BitVec 4) : Code := 0b0010#4 ++ sel

/-- The dispatch code `00110ppv` of a pin write (R82). -/
def pinWriteCode (p : Pin) (l : Level) : Code := 0b00110#5 ++ pinCode p ++ BitVec.ofBool l

/-- `SEL_W = max(1, ceil(log2(length(CFG.STRATS))))` (R16), for a non-empty table. -/
def selWidth (c : Config) : Nat := Nat.log2 (c.strats.length - 1) + 1

/-- `P`, the profile ticks read through `DC.standard` (R16, R108). -/
def profileOf (s : State) : Profile := s.cfg.profile s.standard

/-- `CFG.periodOf(reload)` (R6, D29): the identity but where the configuration lists another value (log 18). -/
def periodOf (c : Config) (reload : Nat) : Nat := (c.periodTable.lookup reload).getD reload

/-- The timer reload value a sync mode selects (R225). -/
def reloadOf (p : Profile) : SyncMode → Nat
  | .h => p.reloadH
  | .v => p.reloadV

/-- `sw`, the width of the sync pulse of a line (R171). -/
def syncWidthOf (p : Profile) : SyncMode → Nat
  | .h => p.syncWidthH
  | .v => p.syncWidthV

/-- `T`, the length of a line (R177). -/
def lineLengthOf (c : Config) (p : Profile) (m : SyncMode) : Nat := periodOf c (reloadOf p m)

/-- `sw` of the line in progress: the mode is the one `DC.syncMode` holds after the handler (R171). -/
def syncWidth (s : State) : Nat := syncWidthOf (profileOf s) s.syncMode

/-- `T` of the line in progress (R177). -/
def lineLength (s : State) : Nat := lineLengthOf s.cfg (profileOf s) s.syncMode

/-- R53: `rowBytes = (width + 7) div 8`. -/
def rowBytesOf (width : Nat) : Nat := (width + 7) / 8

/-- `rowBytes` of the session (R53): a function of `DC.width`. -/
def rowBytes (s : State) : Nat := rowBytesOf s.width.toNat

/-- R163: the address of byte `j` of the row, base plus offset plus index, `mod 2^16`. -/
def fetchAddr (s : State) (j : Nat) : Nat := (s.frameBuffer.toNat + s.currentRenderOffset.toNat + j) % 2 ^ 16

/-- R164, R52: pixel `x` of a fetched row, most significant bit first. -/
def pixelBit (row : List Byte) (x : Nat) : Level := (row.getD (x / 8) 0).getLsbD (7 - x % 8)

/-- `cost(sel)` (R109); outside the table a free value (log 13). -/
def costOf (c : Config) (sel : Nat) : Nat := (c.strats[sel]?).getD (Config.costOffTable sel)

/-- `c`, the cost of the live strategy (R175). -/
def liveCost (s : State) : Nat := costOf s.cfg s.strategySel.toNat

/-- The largest of the first `i + 1` raw instants, each reduced below the cost. -/
def subMax (cost group : Nat) : Nat → Nat
  | 0 => 0
  | i + 1 => max (subMax cost group i) (Config.subRaw cost group (i + 1) % cost)

/-- `sub(i)` (R165, 93 U6, log 11): 0 at 0, not decreasing, below the cost, otherwise free. -/
def subCycle (cost group i : Nat) : Nat := subMax cost group i

/-- R165: the cycle from which pixel `x` is driven, for start delay `d`, group size `g` and cost `c`. -/
def pixelCycle (d g c x : Nat) : Nat := d + x / g * c + subCycle c g (x % g)

/-- R165: the cycle of the final `VID_LO` of a line of `w` pixels. -/
def pixelsEnd (d g c w : Nat) : Nat := d + ceilDiv w g * c

/-- R51: the address `a` lies in `FB_REGION`. -/
def inFbRegion (s : State) (a : Nat) : Prop :=
  ∃ i, i < rowBytes s * s.height.toNat ∧ a = (s.frameBuffer.toNat + i) % 2 ^ 16

end Sys2Proof.Machine
end

