-- ==== Sys2Proof/Machine/Ops.lean ====
section
/-!
DEFINITION. The named operations over memory, the output latches and the trace, and the one entry into and return
from the tick interrupt (spec 20_memory.md; 42_render_and_pins.md R163 to R171; 60_exceptions.md R214, R215).
-/

namespace Sys2Proof.Machine

/-- The outcome of an operation. -/
abbrev Result := Host.Outcome State Fault Refusal

/-- Go on with `f` when `o` is a next state; a stop stays a stop. -/
def andThen (o : Result) (f : State → Result) : Result :=
  match o with
  | .next s => f s
  | .fault r => .fault r
  | .refused r => .refused r

/-! ### Memory -/

/-- The byte written at an address, if any was. -/
def Memory.get : Memory → Nat → Option Byte
  | [], _ => none
  | (a, b) :: m, x => if a = x then some b else Memory.get m x

/-- Store a byte, keeping the addresses strictly rising. -/
def Memory.put : Memory → Nat → Byte → Memory
  | [], x, v => [(x, v)]
  | (a, b) :: m, x, v =>
    if x < a then (x, v) :: (a, b) :: m
    else if x = a then (x, v) :: m
    else (a, b) :: Memory.put m x v

/-- `MemRead(addr, 1)` (R50): the byte last stored at the address, or its power-on byte (log 3). -/
def memRead (m : Memory) (addr : Nat) : Byte := (Memory.get m addr).getD (Config.powerOnByte addr)

/-- `MemWrite(addr, 1, v)` (R9, R205). -/
def memWrite (addr : Word) (v : Byte) (s : State) : State := { s with mem := Memory.put s.mem addr.toNat v }

/-- R163: the `rowBytes` bytes of the row, each read once, in ascending address order. -/
def fetchRow (s : State) : List Byte := (List.range (rowBytes s)).map fun j => memRead s.mem (fetchAddr s j)

/-- R164: the pixel list of the line, exactly `width` bits. -/
def rowPixels (s : State) : List Level := (List.range s.width.toNat).map (pixelBit (fetchRow s))

/-! ### Output latches -/

/-- `PinWrite(pin, level, t)` (R170): the latch takes the level, no other latch changes, and the write is recorded. -/
def pinWrite (w : PinWrite) (s : State) : State :=
  { s with
    outVideo := if w.pin = .video then w.level else s.outVideo
    outSync := if w.pin = .sync then w.level else s.outSync
    outTone := if w.pin = .tone then w.level else s.outTone
    pinWrites := s.pinWrites ++ [w] }

/-- `VID_LO` issued at cycle `t` (R172). -/
def vidLoAt (t : Nat) (s : State) : State := pinWrite ⟨.video, false, t⟩ s

/-- `VID_HI` issued at cycle `t` (R172). -/
def vidHiAt (t : Nat) (s : State) : State := pinWrite ⟨.video, true, t⟩ s

/-- `SYNC_LO` issued at cycle `t` (R173). -/
def syncLoAt (t : Nat) (s : State) : State := pinWrite ⟨.sync, false, t⟩ s

/-- `SYNC_HI` issued at cycle `t` (R173). -/
def syncHiAt (t : Nat) (s : State) : State := pinWrite ⟨.sync, true, t⟩ s

/-- `TONE_LO` issued at cycle `t` (R174). -/
def toneLoAt (t : Nat) (s : State) : State := pinWrite ⟨.tone, false, t⟩ s

/-- One pixel: `VID_HI` for a 1 bit, `VID_LO` for a 0 bit (R165, R172). -/
def pixelAt (t : Nat) (b : Level) (s : State) : State := if b then vidHiAt t s else vidLoAt t s

/-- The level of the shared `TONE` pin (R25, R174, R192, log 8): the block's latch while the tone is off, the
external generator's free level while it is on. -/
def tonePin (s : State) : Level :=
  if s.toneEnable then Config.toneGenerator s.freeIndex s.lineCycle else s.outTone

/-! ### Time within a line -/

/-- R160: wait until cycle `t` of the line; no effect on anything but the cycle counter. -/
def waitUntil (t : Nat) (s : State) : State := { s with lineCycle := t }

/-! ### The tick interrupt -/

/-- Tick entry (R214): nothing is saved; the line begins at cycle 0 and the sequencer raises `SYNC` (R171). A falling
write still due from the line before meets this rise (R254, log 10). -/
def tickEntry (s : State) : State :=
  syncHiAt 0 { s with lineCycle := 0, pinWrites := [], syncFree := s.syncFree || s.syncLate }

/-- The sync pulse of the line ends before the next tick (R254). -/
def pulseFits (s : State) : Bool := decide (syncWidth s < lineLength s)

/-- The falling edge of the sync pulse (R171). One due at or after the next tick has not come when the line ends: `SYNC`
is still asserted (R173). Once such a write has met the next rise, the level is free for ever (R254, U9, log 10). -/
def syncFall (s : State) : State :=
  { syncLoAt (syncWidth s) s with
    outSync := if s.syncFree then Config.lateSync s.freeIndex else !pulseFits s
    syncLate := !pulseFits s }

/-- `emit LineRecord(n, ph0, DC.syncMode, px, cost(DC.strategySel))` (R130, R175). -/
def emitRecord (ph0 : Phase) (s : State) : State :=
  { s with trace := s.trace ++ [⟨s.retLine, ph0, s.syncMode, s.retPixels, liveCost s⟩] }

/-- Tick return (R215, R133): the line record, then the increment of `currentLine` as the last step. The line is over,
so `t` stands at its length (log 6). -/
def tickReturn (ph0 : Phase) (s : State) : State :=
  let s1 := emitRecord ph0 (syncFall s)
  { s1 with currentLine := s1.currentLine + 1, lineCycle := lineLength s1 }

/-! ### Around a step -/

/-- Every step advances the index of the free values (log 25). -/
def advance (s : State) : State := { s with freeIndex := s.freeIndex + 1 }

/-- A step's outcome from its operation's. -/
def finish (o : Result) : Result := andThen o fun s => .next (advance s)

end Sys2Proof.Machine
end

