-- ==== Sys2Proof/Syntax.lean ====
section
/-!
DEFINITION. The operations of the block (spec 30_encoding.md R84): one constructor per row of spec/opcode_table.json,
and `RENDER[sel]` for the entries a table longer than the default has.
-/

namespace Sys2Proof

/-- An operation. Format `X` operations carry the operands of R83; dispatch codes have none. -/
inductive Instr where
  /-- `BEGIN standard, width, height, fbptr` (R100). -/
  | beginCmd (standard : Standard) (width height fbptr : Word)
  /-- `TICK` (R130). -/
  | tick
  /-- `SET_TONE n` (R195); `n` is the sign-extended field (R83). -/
  | setTone (n : Int)
  /-- `FBW addr, data` (R205). -/
  | fbw (addr : Word) (data : Byte)
  /-- `VSYNC_LINE` (R135). -/
  | vsyncLine
  /-- `BLANK_LINE` (R140). -/
  | blankLine
  /-- `ACTIVE_LINE` (R145). -/
  | activeLine
  /-- `RENDER_3C`, strategy index 0 (R166). -/
  | render3c
  /-- `RENDER_4C`, strategy index 1 (R167). -/
  | render4c
  /-- `RENDER_5C`, strategy index 2 (R168). -/
  | render5c
  /-- `RENDER_6C`, strategy index 3 (R169). -/
  | render6c
  /-- `RENDER[sel]` of an entry past the four the opcode table names: code `0x20 + sel` (R82, R84; log 19). -/
  | renderAt (sel : BitVec 4)
  /-- `VID_LO` (R172). -/
  | vidLo
  /-- `VID_HI` (R172). -/
  | vidHi
  /-- `SYNC_LO` (R173). -/
  | syncLo
  /-- `SYNC_HI` (R173). -/
  | syncHi
  /-- `TONE_LO` (R174). -/
  | toneLo
  deriving DecidableEq, Repr

end Sys2Proof
end

