-- ==== Sys2Proof/WellFormed.lean ====
section
/-!
DEFINITION. When a configuration lies in the ranges of spec 00_scope.md R6, and when an operation is one the
configuration encodes (spec 30_encoding.md R83, R86).
-/

namespace Sys2Proof

/-- The configurations `BEGIN` takes: a non-empty table of at most 16 strictly increasing costs (R6, D4) and `G ≥ 1`
(D5). That each cost is positive (R109 divides by it, R9) and that `TONE_W` is (R22's reset value -1 needs a bit) is
DEDUCED and the model's (log 16); `FRAME_W` has no bound. -/
abbrev Config.Wf (c : Config) : Prop :=
  c.strats ≠ [] ∧ c.strats.length ≤ 16 ∧ c.strats.Pairwise (· < ·) ∧ (∀ x ∈ c.strats, 1 ≤ x) ∧
    1 ≤ c.groupSize ∧ 1 ≤ c.toneW

/-- `n` is representable in `bits` bits of two's complement (R83). -/
def fitsSigned (bits : Nat) (n : Int) : Bool :=
  decide (-(2 : Int) ^ (bits - 1) ≤ n) && decide (n < (2 : Int) ^ (bits - 1))

/-- The encodings R86 does not reserve: a `SET_TONE` operand fits its 32-bit field and `TONE_W` bits, and a render
names an entry of the strategy table, by its own name where it has one. -/
def Instr.wf (c : Config) : Instr → Bool
  | .setTone n => fitsSigned 32 n && fitsSigned c.toneW n
  | .render3c => decide (0 < c.strats.length)
  | .render4c => decide (1 < c.strats.length)
  | .render5c => decide (2 < c.strats.length)
  | .render6c => decide (3 < c.strats.length)
  | .renderAt sel => decide (4 ≤ sel.toNat) && decide (sel.toNat < c.strats.length)
  | .beginCmd _ _ _ _ => true
  | .tick => true
  | .fbw _ _ => true
  | .vsyncLine => true
  | .blankLine => true
  | .activeLine => true
  | .vidLo => true
  | .vidHi => true
  | .syncLo => true
  | .syncHi => true
  | .toneLo => true

end Sys2Proof
end

