-- ==== Sys2Proof/Machine/Geometry.lean ====
section
/-!
DEFINITION. The derivations of the frame geometry from the Timing Profile and the Strategy Selector
(spec 40_begin_and_select.md R104 to R113), and the timing predicates over them (spec 70_reset_and_hazards.md R250).
-/

namespace Sys2Proof.Machine

/-- R105: `k`. -/
def scaleConstant (p : Profile) (height : Nat) : Nat := p.displayLines / height - 1

/-- `height · (k + 1)`, the lines of the picture (R107). -/
def pictureLines (p : Profile) (height : Nat) : Nat := height * (scaleConstant p height + 1)

/-- R106: `S`, never negative under R104 (d). -/
def startLine (p : Profile) (height : Nat) : Nat := p.midLine + p.startFudge - pictureLines p height / 2

/-- R107: `E`. -/
def endLine (p : Profile) (height : Nat) : Nat := startLine p height + pictureLines p height

/-- R104 (b) to (f), on the profile and the operands. -/
abbrev BeginPre (p : Profile) (width height : Nat) : Prop :=
  1 ≤ width ∧ 1 ≤ height ∧ height ≤ p.displayLines ∧
    pictureLines p height / 2 ≤ p.midLine + p.startFudge ∧
    endLine p height ≤ 2 ^ 16 - 1 ∧ p.linesPerFrame ≤ 2 ^ 16 - 2 ∧ p.outputStartDelay ≤ 2 ^ 16 - 1 ∧
    rowBytesOf width * height ≤ 2 ^ 16

/-- What `DC10` takes: `P.vsyncEndLine` (R108) where it fits 16 bits, else a free value (log 12). -/
def storedVsyncEnd (p : Profile) : Word :=
  if p.vsyncEndLine < 2 ^ 16 then BitVec.ofNat 16 p.vsyncEndLine else Config.vsyncEndLineOverflow p.vsyncEndLine

/-- `max(fit)` of R110 for the cycles `r` available per group: the last index whose cost is at most `r`. -/
def lastFit (r : Nat) : List Nat → Option Nat
  | [] => none
  | c :: cs =>
    match lastFit r cs with
    | some i => some (i + 1)
    | none => if c ≤ r then some 0 else none

/-- `r` of R110: cycles available per pixel group. -/
def cyclesPerGroup (c : Config) (avail width : Nat) : Nat := avail / ceilDiv width c.groupSize

/-- R110: `Select(A, width)`. -/
def select (c : Config) (avail width : Nat) : Nat := (lastFit (cyclesPerGroup c avail width) c.strats).getD 0

/-- R109: `cyclesPerLine(i, width)`. -/
def cyclesPerLine (c : Config) (i width : Nat) : Nat := costOf c i * ceilDiv width c.groupSize

/-- R109: `maxWidth(i)`. -/
def maxWidth (c : Config) (avail i : Nat) : Nat := c.groupSize * (avail / costOf c i)

/-- R112: the width is supported. -/
def supported (c : Config) (avail width : Nat) : Prop := cyclesPerLine c 0 width ≤ avail

end Sys2Proof.Machine
end

