-- ==== Sys2Proof/Machine/Begin.lean ====
section
/-!
DEFINITION. `BEGIN` (spec 40_begin_and_select.md R100 to R104).
-/

namespace Sys2Proof.Machine

/-- The state `BEGIN` leaves (R100, the "after BEGIN" column of R28); `SYNC` is 0 there, and so not free (log 10). -/
def beginState (std : Standard) (width height fbptr : Word) (s : State) : State :=
  let p := s.cfg.profile std
  let h := height.toNat
  let k := BitVec.ofNat 16 (scaleConstant p h)
  { s with
    standard := std
    width := width
    height := height
    frameBuffer := fbptr
    verticalScaleConstant := k
    verticalScaleCounter := k
    linesPerFrame := BitVec.ofNat 16 p.linesPerFrame
    vsyncEndLine := storedVsyncEnd p
    activeRenderStartLine := BitVec.ofNat 16 (startLine p h)
    activeRenderEndLine := BitVec.ofNat 16 (endLine p h)
    outputStartDelayCycles := BitVec.ofNat 16 p.outputStartDelay
    strategySel := BitVec.ofNat 4 (select s.cfg p.activeCycles width.toNat)
    currentRenderOffset := 0
    currentLine := BitVec.ofNat 16 p.linesPerFrame
    frameCount := 0
    phase := .vsync
    renderActive := false
    syncMode := .h
    outVideo := false
    outSync := false
    outTone := false
    syncLate := false
    syncFree := false
    trace := []
    started := true }

/-- `BEGIN standard, width, height, fbptr` (R100, R103, R104). A configuration outside `Config.Wf` is refused under a
name of its own (log 16). -/
def execBegin (std : Standard) (width height fbptr : Word) (s : State) : Result :=
  if s.started then .refused .beginWhileStarted
  else if ¬ s.cfg.Wf then .refused .configOutsideSpec
  else if ¬ BeginPre (s.cfg.profile std) width.toNat height.toNat then .refused .beginPrecondition
  else .next (beginState std width height fbptr s)

end Sys2Proof.Machine
end

