-- ==== Sys2Proof/Machine/FrameBuffer.lean ====
section
/-!
DEFINITION. The host's frame-buffer write (spec 44_host_frame_buffer.md R205).
-/

namespace Sys2Proof.Machine

/-- `FBW addr, data` (R205): one byte stored, at any time, with no bounds check. -/
def execFbw (addr : Word) (data : Byte) (s : State) : Result := .next (memWrite addr data s)

end Sys2Proof.Machine
end

