-- ==== Sys2Proof/Machine/Render.lean ====
section
/-!
DEFINITION. The render strategies and the multiplexer (spec 42_render_and_pins.md R161 to R169).
-/

namespace Sys2Proof.Machine

/-- R165: the pixels from number `x` on, each at its instant. -/
def emitPixels (d g c : Nat) : Nat → List Level → State → State
  | _, [], s => s
  | x, b :: bs, s => emitPixels d g c (x + 1) bs (pixelAt (pixelCycle d g c x) b s)

/-- `RENDER[sel](DC.frameBuffer, DC.currentRenderOffset, DC.width)` with cost `c` (R162, R165): the row's pixels, the
final `VID_LO`, and the pixel list as the value returned. -/
def renderRow (c : Nat) (s : State) : State :=
  let px := rowPixels s
  let d := s.outputStartDelayCycles.toNat
  let stop := pixelsEnd d s.cfg.groupSize c s.width.toNat
  let s1 := vidLoAt stop (emitPixels d s.cfg.groupSize c 0 px s)
  { waitUntil stop s1 with retPixels := px }

/-- Entry `sel` of `CFG.STRATS` (R82, R165); a code past the table is reserved and refused (R86, 93 U5, log 13). -/
def renderEntry (sel : Nat) (s : State) : Result :=
  if sel < s.cfg.strats.length then .next (renderRow (costOf s.cfg sel) s)
  else .refused (.reservedDispatchCode (renderCode (BitVec.ofNat 4 sel)))

/-- R161: the multiplexer routes the line to the entry `DC.strategySel` names. -/
def muxRender (s : State) : Result := renderEntry s.strategySel.toNat s

/-- `RENDER_3C` (R166): entry 0, cost 3 in the default table. -/
def execRender3c (s : State) : Result := renderEntry 0 s

/-- `RENDER_4C` (R167): entry 1, cost 4 in the default table. -/
def execRender4c (s : State) : Result := renderEntry 1 s

/-- `RENDER_5C` (R168): entry 2, cost 5 in the default table. -/
def execRender5c (s : State) : Result := renderEntry 2 s

/-- `RENDER_6C` (R169): entry 3, cost 6 in the default table. -/
def execRender6c (s : State) : Result := renderEntry 3 s

/-- `RENDER[sel]` of a table with more entries than the default (R84, R165). -/
def execRenderAt (sel : BitVec 4) (s : State) : Result := renderEntry sel.toNat s

end Sys2Proof.Machine
end

