-- ==== Sys2Proof/Machine/Tone.lean ====
section
/-!
DEFINITION. The frame-boundary actions and `SET_TONE` (spec 43_frame_and_tone.md R190 to R195).
-/

namespace Sys2Proof.Machine

/-- The cycle of line 0 at which `TONE_LO` is issued: any cycle before the next tick (R174, log 9). -/
def toneLoTime (s : State) : Nat := Config.toneLoCycle s.freeIndex % lineLength s

/-- `FrameBoundaryActions()` (R190): decrement a positive countdown, then stop the tone if it is 0. -/
def frameBoundaryActions (s : State) : State :=
  let s1 := { s with toneCountdown := toneCountdownAfter s.toneCountdown }
  if toneStops s.toneCountdown then toneLoAt (toneLoTime s) { s1 with toneEnable := false } else s1

/-- `SET_TONE n` (R195). -/
def execSetTone (n : Int) (s : State) : Result :=
  if s.started then
    .next { s with
      toneCountdown := n
      toneEnable := toneEnableOf n
      outTone := if toneEnableOf n then s.outTone else false }
  else .refused .setToneBeforeBegin

end Sys2Proof.Machine
end

