-- ==== Sys2Proof/Machine/Line.lean ====
section
/-!
DEFINITION. The phase handlers and `TICK` (spec 41_line_tick.md R130 to R145).
-/

namespace Sys2Proof.Machine

/-- `return (DC.currentLine, px)` (R130). -/
def handlerReturn (px : List Level) (s : State) : State := { s with retLine := s.currentLine, retPixels := px }

/-- The frame-boundary branch of `VSYNC_LINE` (R135). -/
def frameBoundary (s : State) : State :=
  frameBoundaryActions { s with
    currentLine := 0
    frameCount := (s.frameCount + 1) % 2 ^ s.cfg.frameW
    syncMode := .v }

/-- `VSYNC_LINE` (R135). -/
def execVsyncLine (s : State) : Result :=
  if s.linesPerFrame.toNat ≤ s.currentLine.toNat then .next (handlerReturn [] (frameBoundary s))
  else if s.currentLine.toNat = s.vsyncEndLine.toNat then
    .next (handlerReturn [] { s with syncMode := .h, phase := .blank })
  else .next (handlerReturn [] s)

/-- `BLANK_LINE` (R140). `currentLine = L − 1` is read over the integers: `currentLine + 1 = L`. -/
def execBlankLine (s : State) : Result :=
  if s.currentLine.toNat = s.activeRenderStartLine.toNat then
    .next (handlerReturn [] { s with
      verticalScaleCounter := s.verticalScaleConstant
      currentRenderOffset := 0
      phase := .active
      renderActive := true })
  else if s.currentLine.toNat + 1 = s.linesPerFrame.toNat then .next (handlerReturn [] { s with phase := .vsync })
  else .next (handlerReturn [] s)

/-- The scale update of `ACTIVE_LINE` (R145). -/
def scaleUpdate (s : State) : State :=
  if s.verticalScaleCounter.toNat = 0 then
    { s with
      verticalScaleCounter := s.verticalScaleConstant
      currentRenderOffset := BitVec.ofNat 16 (s.currentRenderOffset.toNat + rowBytes s) }
  else { s with verticalScaleCounter := BitVec.ofNat 16 (s.verticalScaleCounter.toNat - 1) }

/-- The end test of `ACTIVE_LINE` (R145), on the number of the next line, over the integers. -/
def endTest (s : State) : State :=
  if s.currentLine.toNat + 1 = s.activeRenderEndLine.toNat then { s with phase := .blank, renderActive := false }
  else s

/-- `ACTIVE_LINE` (R145): wait, render one row, update the scale, test the end. -/
def execActiveLine (s : State) : Result :=
  andThen (muxRender (waitUntil s.outputStartDelayCycles.toNat s)) fun s1 =>
    .next (handlerReturn s1.retPixels (endTest (scaleUpdate s1)))

/-- The dispatch on the phase the tick found (R130, R132): there is no vector table, the phase is the vector (R214). -/
def runHandler (ph0 : Phase) (s : State) : Result :=
  match ph0 with
  | .vsync => execVsyncLine s
  | .blank => execBlankLine s
  | .active => execActiveLine s

/-- `TICK` (R130, R131): one atomic step (R214). -/
def execTick (s : State) : Result :=
  if s.started then andThen (runHandler s.phase (tickEntry s)) fun s1 => .next (tickReturn s.phase s1)
  else .next s

end Sys2Proof.Machine
end

