-- ==== Sys2Proof/Machine/Pins.lean ====
section
/-!
DEFINITION. The five pin writes of the sequencer (spec 42_render_and_pins.md R172 to R174). Run alone, a pin write is
issued at the current cycle `t` of the line.
-/

namespace Sys2Proof.Machine

/-- `VID_LO` (R172). -/
def execVidLo (s : State) : Result := .next (vidLoAt s.lineCycle s)

/-- `VID_HI` (R172). -/
def execVidHi (s : State) : Result := .next (vidHiAt s.lineCycle s)

/-- `SYNC_LO` (R173). -/
def execSyncLo (s : State) : Result := .next (syncLoAt s.lineCycle s)

/-- `SYNC_HI` (R173). -/
def execSyncHi (s : State) : Result := .next (syncHiAt s.lineCycle s)

/-- `TONE_LO` (R174). -/
def execToneLo (s : State) : Result := .next (toneLoAt s.lineCycle s)

end Sys2Proof.Machine
end

