-- ==== Sys2Proof/Machine/Dispatch.lean ====
section
/-! DEFINITION. One arm per operation: each is one direct call of its meaning. -/

namespace Sys2Proof.Machine

def exec (i : Instr) (s : State) : Host.Outcome State Fault Refusal :=
  match i with
  | .beginCmd std w h fb => Sys2Proof.Machine.execBegin std w h fb s
  | .tick => Sys2Proof.Machine.execTick s
  | .setTone n => Sys2Proof.Machine.execSetTone n s
  | .fbw addr data => Sys2Proof.Machine.execFbw addr data s
  | .vsyncLine => Sys2Proof.Machine.execVsyncLine s
  | .blankLine => Sys2Proof.Machine.execBlankLine s
  | .activeLine => Sys2Proof.Machine.execActiveLine s
  | .render3c => Sys2Proof.Machine.execRender3c s
  | .render4c => Sys2Proof.Machine.execRender4c s
  | .render5c => Sys2Proof.Machine.execRender5c s
  | .render6c => Sys2Proof.Machine.execRender6c s
  | .renderAt sel => Sys2Proof.Machine.execRenderAt sel s
  | .vidLo => Sys2Proof.Machine.execVidLo s
  | .vidHi => Sys2Proof.Machine.execVidHi s
  | .syncLo => Sys2Proof.Machine.execSyncLo s
  | .syncHi => Sys2Proof.Machine.execSyncHi s
  | .toneLo => Sys2Proof.Machine.execToneLo s

end Sys2Proof.Machine
end

