-- ==== Sys2Proof/Decode.lean ====
section
/-!
DEFINITION. Decoding and encoding of command words and dispatch codes (spec 30_encoding.md R80 to R86), written from
the field tables of R81 and R82.
-/

namespace Sys2Proof

/-- An encoded operation: a 64-bit command word or an 8-bit dispatch code (R80). -/
inductive Encoded where
  | command (w : CmdWord)
  | code (c : Code)
  deriving DecidableEq, Repr

/-- R81, D3: 0 is `NTSC`, 1 is `PAL`. -/
def standardOfBit (b : Bool) : Standard := if b then .pal else .ntsc

/-- R81, D3. -/
def standardBit : Standard → BitVec 1
  | .ntsc => 0#1
  | .pal => 1#1

/-- The instruction a command word stands for; `none` for the reserved words of R86 that do not depend on `TONE_W`. -/
def decodeCommand (w : CmdWord) : Option Instr :=
  if w.extractLsb' 56 8 = 0x01#8 then
    if w.extractLsb' 49 7 = 0#7 then
      some (.beginCmd (standardOfBit (w.getLsbD 48)) (w.extractLsb' 32 16) (w.extractLsb' 16 16) (w.extractLsb' 0 16))
    else none
  else if w.extractLsb' 56 8 = 0x02#8 then
    if w.extractLsb' 0 56 = 0#56 then some .tick else none
  else if w.extractLsb' 56 8 = 0x03#8 then
    if w.extractLsb' 32 24 = 0#24 then some (.setTone (w.extractLsb' 0 32).toInt) else none
  else if w.extractLsb' 56 8 = 0x04#8 then
    if w.extractLsb' 24 32 = 0#32 then some (.fbw (w.extractLsb' 8 16) (w.extractLsb' 0 8)) else none
  else none

/-- The instruction a dispatch code stands for (R82, R84); `none` for the codes R86 reserves under every table. Which
render codes a table reserves is `Instr.wf`'s to say, as which operands `TONE_W` does. -/
def decodeCode (c : Code) : Option Instr :=
  match c.toNat with
  | 0x10 => some .vsyncLine
  | 0x11 => some .blankLine
  | 0x12 => some .activeLine
  | 0x20 => some .render3c
  | 0x21 => some .render4c
  | 0x22 => some .render5c
  | 0x23 => some .render6c
  | 0x30 => some .vidLo
  | 0x31 => some .vidHi
  | 0x32 => some .syncLo
  | 0x33 => some .syncHi
  | 0x34 => some .toneLo
  | _ => if c.extractLsb' 4 4 = 0b0010#4 then some (.renderAt (c.extractLsb' 0 4)) else none

/-- Decoding of either format. -/
def decode : Encoded → Option Instr
  | .command w => decodeCommand w
  | .code c => decodeCode c

/-- The encoding of an instruction, from the same tables (R81, R82). -/
def encode : Instr → Encoded
  | .beginCmd std width height fbptr => .command (0x01#8 ++ 0#7 ++ standardBit std ++ width ++ height ++ fbptr)
  | .tick => .command (0x02#8 ++ 0#56)
  | .setTone n => .command (0x03#8 ++ 0#24 ++ BitVec.ofInt 32 n)
  | .fbw addr data => .command (0x04#8 ++ 0#32 ++ addr ++ data)
  | .vsyncLine => .code 0x10#8
  | .blankLine => .code 0x11#8
  | .activeLine => .code 0x12#8
  | .render3c => .code 0x20#8
  | .render4c => .code 0x21#8
  | .render5c => .code 0x22#8
  | .render6c => .code 0x23#8
  | .renderAt sel => .code (0b0010#4 ++ sel)
  | .vidLo => .code 0x30#8
  | .vidHi => .code 0x31#8
  | .syncLo => .code 0x32#8
  | .syncHi => .code 0x33#8
  | .toneLo => .code 0x34#8

/-- The mask and the pattern of an instruction's row of spec/opcode_table.json (R85), on the row's `nbits` bits. -/
structure TableRow where
  nbits   : Nat
  mask    : Nat
  pattern : Nat
  deriving DecidableEq, Repr

/-- The row of an instruction (R84, R85); `RENDER[sel]` has the row R84 gives another table. -/
def tableRow : Instr → TableRow
  | .beginCmd _ _ _ _ => ⟨64, 0xFFFE000000000000, 0x0100000000000000⟩
  | .tick => ⟨64, 0xFFFFFFFFFFFFFFFF, 0x0200000000000000⟩
  | .setTone _ => ⟨64, 0xFFFFFFFF00000000, 0x0300000000000000⟩
  | .fbw _ _ => ⟨64, 0xFFFFFFFFFF000000, 0x0400000000000000⟩
  | .vsyncLine => ⟨8, 0xFF, 0x10⟩
  | .blankLine => ⟨8, 0xFF, 0x11⟩
  | .activeLine => ⟨8, 0xFF, 0x12⟩
  | .render3c => ⟨8, 0xFF, 0x20⟩
  | .render4c => ⟨8, 0xFF, 0x21⟩
  | .render5c => ⟨8, 0xFF, 0x22⟩
  | .render6c => ⟨8, 0xFF, 0x23⟩
  | .renderAt sel => ⟨8, 0xFF, 0x20 + sel.toNat⟩
  | .vidLo => ⟨8, 0xFF, 0x30⟩
  | .vidHi => ⟨8, 0xFF, 0x31⟩
  | .syncLo => ⟨8, 0xFF, 0x32⟩
  | .syncHi => ⟨8, 0xFF, 0x33⟩
  | .toneLo => ⟨8, 0xFF, 0x34⟩

/-- How many bits an encoding has and what they are as a number, bit 0 the least significant (R81, R82). -/
def encodedBits : Encoded → Nat × Nat
  | .command w => (64, w.toNat)
  | .code c => (8, c.toNat)

/-- `word AND mask = match` (R85), for a row of the encoding's own length. -/
abbrev matchesRow (r : TableRow) (e : Encoded) : Prop :=
  (encodedBits e).1 = r.nbits ∧ (encodedBits e).2 &&& r.mask = r.pattern

/-- The bits of `w` as an encoded operation: 64 bits are a command word, 8 bits a dispatch code (R80, R90). -/
def encodedOfBits (nbits w : Nat) : Option Encoded :=
  if 2 ^ nbits ≤ w then none
  else if nbits = 64 then some (.command (BitVec.ofNat 64 w))
  else if nbits = 8 then some (.code (BitVec.ofNat 8 w))
  else none

/-- What the decoder reads from the `nbits`-bit row word `w`, numbered as spec/opcode_table.json numbers it. -/
def decodeTableWord (nbits w : Nat) : Option Instr := (encodedOfBits nbits w).bind decode

end Sys2Proof
end

