-- ==== Sys2Proof/Machine/Fetch.lean ====
section
/-!
DEFINITION. Taking the next operation: from the command port, in the total order of spec 20_memory.md R60, or a
dispatch code to be run alone (logs 4 and 5). Reserved words are refused (spec 30_encoding.md R86).
-/

namespace Sys2Proof.Machine

/-- What a step finds to do. -/
inductive Fetched where
  /-- No operation is asked for. -/
  | idle
  /-- Run `i` in the state with the word taken. -/
  | run (i : Instr) (s : State)
  /-- The word is reserved. -/
  | bad (r : Refusal)

/-- A decoded operation the configuration does not reserve (R86): a `SET_TONE` that fits `TONE_W`, a render of an entry
of the table. -/
def accept (c : Config) (o : Option Instr) : Option Instr := o.filter (Instr.wf c)

/-- The next operation: a dispatch code if one is queued, else the oldest command word. -/
def fetch (s : State) : Fetched :=
  match s.dispatch with
  | c :: cs =>
    match accept s.cfg (decodeCode c) with
    | some i => .run i { s with dispatch := cs }
    | none => .bad (.reservedDispatchCode c)
  | [] =>
    match s.commands with
    | w :: ws =>
      match accept s.cfg (decodeCommand w) with
      | some i => .run i { s with commands := ws }
      | none => .bad (.reservedCommandWord w)
    | [] => .idle

/-- Put an encoded operation where `fetch` looks first. -/
def placeNext (s : State) : Encoded → State
  | .command w => { s with dispatch := [], commands := w :: s.commands }
  | .code c => { s with dispatch := c :: s.dispatch }

/-- `placeNext` for a row's word numbered as the opcode table numbers it (64 bits a command word, else a code). -/
def placeBits (s : State) (nbits w : Nat) : State :=
  if nbits = 8 then placeNext s (.code (BitVec.ofNat 8 w)) else placeNext s (.command (BitVec.ofNat 64 w))

end Sys2Proof.Machine
end

