-- ==== Sys2Proof/Machine/Step.lean ====
section
/-!
DEFINITION. One step: the next operation of the total order, run to completion (spec 20_memory.md R60), or an idle
step when none is asked for (log 4).
-/

namespace Sys2Proof.Machine

/-- One step. -/
def step (s : State) : Host.Outcome State Fault Refusal :=
  match fetch s with
  | .idle => finish (.next s)
  | .run i s1 => finish (exec i s1)
  | .bad r => .refused r

/-- `s` with an opcode-table word placed where `step` takes its next operation. -/
def State.withFetchWord (s : State) (nbits w : Nat) : State := placeBits s nbits w

end Sys2Proof.Machine
end

