-- ==== Sys2Proof/Machine/Script.lean ====
section
/-!
DEFINITION. Event scripts and their pseudo-operations (spec 30_encoding.md R88, R89): the expansion of a script into
the command words it stands for, in order.
-/

namespace Sys2Proof.Machine

/-- A line of an event script (R88), the pseudo-operations of R89 among them. -/
inductive ScriptLine where
  | beginLine (standard : Standard) (width height fbptr : Word)
  | tickLine
  | toneLine (n : Int)
  | fbwLine (addr : Word) (data : Byte)
  | ticks (n : Nat)
  | frame
  | fill (addr : Word) (bytes : List Byte)
  deriving DecidableEq, Repr

/-- `FILL` (R89): ascending order, addresses `mod 2^16`. -/
def fillOps : Word → List Byte → List Instr
  | _, [] => []
  | a, b :: bs => .fbw a b :: fillOps (a + 1) bs

/-- The operations of one line; `std` is the standard of the preceding `BEGIN`, which gives `FRAME` its `L` (log 26). R88
does not say what `TONE n` stands for where `n` does not fit the 32-bit field of R83: the model gives it no expansion
(DESIGN CHOICE, log 29). One that fits the field but not `TONE_W` is a word like any other, which the step refuses. -/
def expandLine (c : Config) (std : Option Standard) : ScriptLine → Option (List Instr)
  | .beginLine s w h fb => some [.beginCmd s w h fb]
  | .tickLine => some [.tick]
  | .toneLine n => if fitsSigned 32 n then some [.setTone n] else none
  | .fbwLine a d => some [.fbw a d]
  | .ticks n => some (List.replicate n .tick)
  | .frame => std.map fun s => List.replicate (c.profile s).linesPerFrame .tick
  | .fill a bs => some (fillOps a bs)

/-- The standard in force after a line. -/
def standardAfter (std : Option Standard) : ScriptLine → Option Standard
  | .beginLine s _ _ _ => some s
  | _ => std

/-- The operations of a script. One line with no expansion leaves the whole script without one, earlier lines included
(DESIGN CHOICE, logs 26 and 29). -/
def expandScript (c : Config) : Option Standard → List ScriptLine → Option (List Instr)
  | _, [] => some []
  | std, l :: ls =>
    match expandLine c std l, expandScript c (standardAfter std l) ls with
    | some a, some b => some (a ++ b)
    | _, _ => none

/-- The command word of an external operation; a dispatch code has none (R80). -/
def commandWord (i : Instr) : Option CmdWord :=
  match encode i with
  | .command w => some w
  | .code _ => none

/-- The command words a script stands for (R88): what the host and the timer present, in the order of R60. -/
def scriptWords (c : Config) (ls : List ScriptLine) : Option (List CmdWord) :=
  (expandScript c none ls).map (List.filterMap commandWord)

end Sys2Proof.Machine
end

