-- ==== Sys2Proof/Machine/Waveform.lean ====
section
/-!
DEFINITION. What a display sees of a line: the pixels a row shows (spec 42_render_and_pins.md R163, R164), the timed
writes of a render (R165), the levels the pin writes give (R170) and the waveform of a line record (R176). These say
the rules in closed form, for statements about the operations.
-/

namespace Sys2Proof.Machine

/-- R163 and R164 in one: pixel `x` of the row at offset `off` is bit `7 − (x mod 8)` of the byte at
`(fb + off + x div 8) mod 2^16`. -/
def shownPixels (m : Memory) (fb off w : Nat) : List Level :=
  (List.range w).map fun x => (memRead m ((fb + off + x / 8) % 2 ^ 16)).getLsbD (7 - x % 8)

/-- The timed writes of a render of `px` (R165): each pixel at its instant, then the final `VID_LO`. -/
def renderWrites (d g c : Nat) (px : List Level) : List PinWrite :=
  (px.mapIdx fun x b => ⟨.video, b, d + x / g * c + subCycle c g (x % g)⟩) ++
    [⟨.video, false, d + (px.length + g - 1) / g * c⟩]

/-- R170: the level of a pin at cycle `t`, from its level at the start of the line and the line's writes. -/
def levelAt (pin : Pin) (init : Level) (ws : List PinWrite) (t : Nat) : Level :=
  ws.foldl (fun l w => if w.pin = pin ∧ w.cycle ≤ t then w.level else l) init

/-- The level of the `SYNC` output at cycle `t` of the line: that of its writes, which begin at cycle 0 (R171), but any
value once two writes have collided (R254, U9, log 10). -/
def syncPin (s : State) (t : Nat) : Level :=
  if s.syncFree then Config.collidedSync s.freeIndex t else levelAt .sync false s.pinWrites t

/-- R176: `SYNC(t)` of a line record. -/
def recordSync (p : Profile) (r : LineRecord) (t : Nat) : Level := decide (t < syncWidthOf p r.mode)

/-- R176: `VIDEO(t)` of a line record, for `G = 1`. -/
def recordVideo (d w : Nat) (r : LineRecord) (t : Nat) : Level :=
  if r.phase = .active ∧ d ≤ t ∧ t < d + w * r.cost then r.px.getD ((t - d) / r.cost) false else false

/-- R177: the length of a record's line. -/
def recordLength (c : Config) (p : Profile) (r : LineRecord) : Nat := lineLengthOf c p r.mode

end Sys2Proof.Machine
end

