-- ==== Sys2Proof/Safety.lean ====
section
/-!
DEFINITION. What a safe run is: the well-formed configurations of spec 70_reset_and_hazards.md R250, the course of a
frame of 41_line_tick.md R151 and R153, and the invariant every step keeps (10_state.md R27).
-/

namespace Sys2Proof.Machine

/-- R250 (W1): `1 ≤ V ≤ L − 2`. -/
abbrev VsyncWf (s : State) : Prop := 1 ≤ s.vsyncEndLine.toNat ∧ s.vsyncEndLine.toNat + 2 ≤ s.linesPerFrame.toNat

/-- R250 (W2), first case: the picture is placed inside the frame. -/
abbrev PicturePlaced (s : State) : Prop :=
  s.vsyncEndLine.toNat + 1 ≤ s.activeRenderStartLine.toNat ∧
    s.activeRenderStartLine.toNat + 2 ≤ s.activeRenderEndLine.toNat ∧
    s.activeRenderEndLine.toNat + 1 ≤ s.linesPerFrame.toNat

/-- R250 (W2), second case: there is no active video at all. -/
abbrev NoPicture (s : State) : Prop :=
  s.activeRenderStartLine.toNat ≤ s.vsyncEndLine.toNat ∨ s.linesPerFrame.toNat ≤ s.activeRenderStartLine.toNat

/-- R250 (W1) and (W2): the frame geometry is well formed. -/
abbrev GeometryWf (s : State) : Prop := VsyncWf s ∧ (PicturePlaced s ∨ NoPicture s)

/-- R250 (W3): each pulse and the pixels fit their line. -/
abbrev TimingWf (s : State) : Prop :=
  (profileOf s).syncWidthH ≤ s.outputStartDelayCycles.toNat ∧
    pixelsEnd s.outputStartDelayCycles.toNat s.cfg.groupSize (liveCost s) s.width.toNat
      < lineLengthOf s.cfg (profileOf s) .h ∧
    (profileOf s).syncWidthV < lineLengthOf s.cfg (profileOf s) .v

/-- The strategy index names an entry of the table (R86, R110). -/
abbrev SelValid (s : State) : Prop := s.strategySel.toNat < s.cfg.strats.length

/-- The configuration registers of R16 hold what `BEGIN` derives from the configuration and the operands it stored. -/
abbrev ConfigRegs (s : State) : Prop :=
  s.cfg.Wf ∧ BeginPre (profileOf s) s.width.toNat s.height.toNat ∧
    s.verticalScaleConstant.toNat = scaleConstant (profileOf s) s.height.toNat ∧
    s.activeRenderStartLine.toNat = startLine (profileOf s) s.height.toNat ∧
    s.activeRenderEndLine.toNat = endLine (profileOf s) s.height.toNat ∧
    s.vsyncEndLine = storedVsyncEnd (profileOf s) ∧
    s.linesPerFrame.toNat = (profileOf s).linesPerFrame ∧
    s.outputStartDelayCycles.toNat = (profileOf s).outputStartDelay ∧
    s.strategySel.toNat = select s.cfg (profileOf s).activeCycles s.width.toNat

/-- The number of lines since the first line with pixels, `n − S − 1` (R153). -/
def pictureLine (s : State) : Nat := s.currentLine.toNat - s.activeRenderStartLine.toNat - 1

/-- Where the machine stands in the course of a frame (R151), and which row the next active line shows (R153). -/
abbrev Course (s : State) : Prop :=
  (s.phase = .vsync →
    s.currentLine.toNat ≤ s.vsyncEndLine.toNat ∨ s.currentLine.toNat = s.linesPerFrame.toNat) ∧
  (s.phase = .blank →
    s.vsyncEndLine.toNat + 1 ≤ s.currentLine.toNat ∧ s.currentLine.toNat + 1 ≤ s.linesPerFrame.toNat ∧
      s.syncMode = .h ∧
      (NoPicture s ∨ s.currentLine.toNat ≤ s.activeRenderStartLine.toNat ∨
        s.activeRenderEndLine.toNat ≤ s.currentLine.toNat)) ∧
  (s.phase = .active →
    ¬ NoPicture s ∧ s.syncMode = .h ∧
      s.activeRenderStartLine.toNat + 1 ≤ s.currentLine.toNat ∧
      s.currentLine.toNat + 1 ≤ s.activeRenderEndLine.toNat ∧
      s.currentRenderOffset.toNat = rowBytes s * (pictureLine s / (s.verticalScaleConstant.toNat + 1)) ∧
      s.verticalScaleCounter.toNat =
        s.verticalScaleConstant.toNat - pictureLine s % (s.verticalScaleConstant.toNat + 1))

/-- The invariant of the machine: the memory's form, the widths of the two registers held as numbers, no dispatch
code queued, `VIDEO` at 0 between operations (R172), and, once started, the registers `BEGIN` wrote, R14, R21 and the course of a frame. -/
abbrev Inv (s : State) : Prop :=
  Memory.wf s.mem ∧ s.frameCount < 2 ^ s.cfg.frameW ∧ fitsSigned s.cfg.toneW s.toneCountdown = true ∧
    s.dispatch = [] ∧ s.outVideo = false ∧
    (s.started = true →
      ConfigRegs s ∧ s.renderActive = renderActiveIn s.phase ∧
        s.verticalScaleCounter.toNat ≤ s.verticalScaleConstant.toNat ∧ (GeometryWf s → Course s))

/-- The machine runs freely from a state: its invariant holds and a session is under way. -/
abbrev Running (s : State) : Prop := Inv s ∧ s.started = true

/-- What no cycle count may reach (R260): the state without the configuration, the cycle counter, the timed writes, the
`SYNC` latch with the model's account of its collisions (log 10), and the costs in the trace. -/
def contextOf (s : State) : State :=
  { s with
    cfg := Config.initial
    lineCycle := 0
    pinWrites := []
    outSync := false
    syncLate := false
    syncFree := false
    trace := s.trace.map fun r => { r with cost := 0 } }

/-- The tone is stopped (R192). -/
abbrev ToneSilent (s : State) : Prop := s.toneEnable = false ∧ s.outTone = false

/-- `n` ticks one after the other. -/
def runTicks : Nat → State → Result
  | 0, s => .next s
  | n + 1, s => andThen (execTick s) (runTicks n)

/-- The next tick is a frame boundary (R190). -/
abbrev AtBoundary (s : State) : Prop :=
  s.started = true ∧ s.phase = .vsync ∧ s.linesPerFrame.toNat ≤ s.currentLine.toNat

/-- How many of the next `n` ticks are frame boundaries (R190, R193). -/
def boundariesIn : Nat → State → Nat
  | 0, _ => 0
  | n + 1, s =>
    match execTick s with
    | .next t => (if AtBoundary s then 1 else 0) + boundariesIn n t
    | .fault _ => 0
    | .refused _ => 0

end Sys2Proof.Machine
end

