-- ==== Sys2Proof/Certificates/Slice0/Obligations.lean ====
section
/-!
DEFINITION. The statements for the provers, from the numbered rules of spec/.
-/

open Sys2Proof Sys2Proof.Machine

/-! ### Encoding -/

/-- Words written out in 95_test_vectors.md section 2.1 from the fields of R81 and R82 decode to their operations, and
reserved ones to nothing. -/
def Obligations.DecodesWrittenWords : Prop :=
  decodeCommand 0x0100001000040100#64 = some (.beginCmd .ntsc 16#16 4#16 0x0100#16) ∧
  decodeCommand 0x0101008000600200#64 = some (.beginCmd .pal 128#16 96#16 0x0200#16) ∧
  decodeCommand 0x0200000000000000#64 = some .tick ∧
  decodeCommand 0x03000000FFFFFFFF#64 = some (.setTone (-1)) ∧
  decodeCommand 0x04000000000100A5#64 = some (.fbw 0x0100#16 0xA5#8) ∧
  decodeCode 0x12#8 = some .activeLine ∧
  decodeCode 0x22#8 = some .render5c ∧
  decodeCode 0x33#8 = some .syncHi ∧
  decodeCode 0x34#8 = some .toneLo ∧
  decodeCommand 0x0200000000000001#64 = none ∧
  decodeCommand 0x0102001000040100#64 = none ∧
  decodeCode 0x13#8 = none

/-- R82, R84: the pattern of each dispatch code decodes to the handler, strategy or pin write it names, and the code of
every entry of the strategy table, of whatever length, to a render that invokes that entry. -/
def Obligations.DispatchCodesName : Prop :=
  decodeCode (handlerCode .vsync) = some .vsyncLine ∧ decodeCode (handlerCode .blank) = some .blankLine ∧
  decodeCode (handlerCode .active) = some .activeLine ∧
  decodeCode (renderCode 0b0000#4) = some .render3c ∧ decodeCode (renderCode 0b0001#4) = some .render4c ∧
  decodeCode (renderCode 0b0010#4) = some .render5c ∧ decodeCode (renderCode 0b0011#4) = some .render6c ∧
  decodeCode (pinWriteCode .video false) = some .vidLo ∧ decodeCode (pinWriteCode .video true) = some .vidHi ∧
  decodeCode (pinWriteCode .sync false) = some .syncLo ∧ decodeCode (pinWriteCode .sync true) = some .syncHi ∧
  decodeCode (pinWriteCode .tone false) = some .toneLo ∧ decodeCode (pinWriteCode .tone true) = none ∧
  (∀ sel : BitVec 4, 4 ≤ sel.toNat → decodeCode (renderCode sel) = some (.renderAt sel)) ∧
  (∀ (sel : BitVec 4) (i : Instr), decodeCode (renderCode sel) = some i →
    (∀ c : Config, i.wf c = decide (sel.toNat < c.strats.length)) ∧ ∀ s : State, exec i s = renderEntry sel.toNat s)

/-- Every well-formed instruction is what its encoding decodes to, at every value of its operands (R81 to R83). -/
def Obligations.DecodeOfEncode : Prop :=
  ∀ (c : Config) (i : Instr), i.wf c = true → decode (encode i) = some i

/-- A word that decodes is the encoding of what it decodes to: no bit is ignored (R81, R82, R85). -/
def Obligations.EncodeOfDecode : Prop :=
  ∀ (e : Encoded) (i : Instr), decode e = some i → encode i = e

/-- R85: decoding is by `op8` and the must-be-zero bits; a word matches a row when `word AND mask = match`, with the
masks R85 lists; no word matches two rows. -/
def Obligations.DecodingIsByMask : Prop :=
  (∀ s w h f, tableRow (.beginCmd s w h f) = ⟨64, 0xFFFE000000000000, 0x0100000000000000⟩) ∧
  tableRow .tick = ⟨64, 0xFFFFFFFFFFFFFFFF, 0x0200000000000000⟩ ∧
  (∀ n, tableRow (.setTone n) = ⟨64, 0xFFFFFFFF00000000, 0x0300000000000000⟩) ∧
  (∀ a d, tableRow (.fbw a d) = ⟨64, 0xFFFFFFFFFF000000, 0x0400000000000000⟩) ∧
  (∀ (w : CmdWord) (i : Instr), decodeCommand w = some i → matchesRow (tableRow i) (.command w)) ∧
  (∀ (w : CmdWord), decodeCommand w = none → ∀ i, ¬ matchesRow (tableRow i) (.command w)) ∧
  (∀ (w : CmdWord) (i j : Instr), matchesRow (tableRow i) (.command w) → matchesRow (tableRow j) (.command w) →
    tableRow i = tableRow j)

/-- Reserved words and codes are refused (R86): a command word that matches no row, a `SET_TONE` whose operand does not
fit `TONE_W`, a dispatch code that is neither one of the eight handlers and pin writes nor that of an entry of the
table. The queues are the
model's choice (logs 4, 5). -/
def Obligations.ReservedEncodingsRefused : Prop :=
  (∀ (s : State) (w : CmdWord) (ws : List CmdWord), s.dispatch = [] → s.commands = w :: ws →
    (∀ i, ¬ matchesRow (tableRow i) (.command w)) → step s = .refused (.reservedCommandWord w)) ∧
  (∀ (s : State) (w : CmdWord) (ws : List CmdWord), s.dispatch = [] → s.commands = w :: ws →
    w.extractLsb' 32 32 = 0x03000000#32 → fitsSigned s.cfg.toneW (w.extractLsb' 0 32).toInt = false →
    step s = .refused (.reservedCommandWord w)) ∧
  (∀ (s : State) (c : Code) (cs : List Code), s.dispatch = c :: cs →
    c ∉ [0x10#8, 0x11#8, 0x12#8, 0x30#8, 0x31#8, 0x32#8, 0x33#8, 0x34#8] →
    (∀ sel : BitVec 4, sel.toNat < s.cfg.strats.length → c ≠ renderCode sel) →
    step s = .refused (.reservedDispatchCode c))

/-- A step runs the operation its word decodes to, in the state with the word taken, and then only advances the index
of the free values; with nothing asked for it only advances that index. The queues and the index are the model's
choice (logs 4, 5, 25). -/
def Obligations.StepRunsTheDecodedOperation : Prop :=
  (∀ (s : State) (w : CmdWord) (ws : List CmdWord) (i : Instr), s.dispatch = [] → s.commands = w :: ws →
    decodeCommand w = some i → i.wf s.cfg = true →
    (∀ t, exec i { s with commands := ws } = .next t → step s = .next { t with freeIndex := t.freeIndex + 1 }) ∧
    (∀ r, exec i { s with commands := ws } = .refused r → step s = .refused r)) ∧
  (∀ (s : State) (c : Code) (cs : List Code) (i : Instr), s.dispatch = c :: cs →
    decodeCode c = some i → i.wf s.cfg = true →
    (∀ t, exec i { s with dispatch := cs } = .next t → step s = .next { t with freeIndex := t.freeIndex + 1 }) ∧
    (∀ r, exec i { s with dispatch := cs } = .refused r → step s = .refused r)) ∧
  (∀ s : State, s.dispatch = [] → s.commands = [] → step s = .next { s with freeIndex := s.freeIndex + 1 })

/-- R89: what the pseudo-operations expand to. `FRAME` takes `L` from the last `BEGIN` before it in the script, and that
is what the `BEGIN` stores in `linesPerFrame`; before any `BEGIN` it has no expansion, the model's choice (log 26). -/
def Obligations.PseudoOperationsExpand : Prop :=
  (∀ (c : Config) (std : Option Standard) (n : Nat), expandLine c std (.ticks n) = some (List.replicate n .tick)) ∧
  (∀ (c : Config) (std : Standard),
    expandLine c (some std) .frame = some (List.replicate (c.profile std).linesPerFrame .tick)) ∧
  (∀ c : Config, expandLine c none .frame = none) ∧
  (∀ (c : Config) (s0 : Option Standard) (before between : List ScriptLine) (std : Standard) (w h fb : Word)
    (ops : List Instr), (∀ l ∈ between, ∀ x a b f, l ≠ .beginLine x a b f) →
    expandScript c s0 (before ++ .beginLine std w h fb :: between) = some ops →
    expandScript c s0 (before ++ .beginLine std w h fb :: (between ++ [.frame])) =
      some (ops ++ List.replicate (c.profile std).linesPerFrame .tick)) ∧
  (∀ (s t : State) (std : Standard) (w h fb : Word), exec (.beginCmd std w h fb) s = .next t →
    t.linesPerFrame.toNat = (s.cfg.profile std).linesPerFrame) ∧
  (∀ (c : Config) (std : Option Standard) (a : Word) (bs : List Byte),
    ∃ ops, expandLine c std (.fill a bs) = some ops ∧ ops.length = bs.length ∧
      ∀ i (h : i < bs.length),
        ops[i]? = some (.fbw (BitVec.ofNat 16 ((a.toNat + i) % 2 ^ 16)) (bs[i])))

/-! ### Power-on, `BEGIN` and the selector -/

/-- R240: the power-on column of R28 under any configuration; the block does nothing until `BEGIN`; no operation clears
`started`. -/
def Obligations.PowerOnState : Prop :=
  (∀ c : Config,
    (State.powerOn c).started = false ∧ (State.powerOn c).toneEnable = false ∧
    (State.powerOn c).toneCountdown = -1 ∧ (State.powerOn c).outVideo = false ∧
    (State.powerOn c).outSync = false ∧ (State.powerOn c).outTone = false ∧ (State.powerOn c).trace = []) ∧
  State.reset.started = false ∧ State.reset.toneEnable = false ∧ State.reset.toneCountdown = -1 ∧
  State.reset.outVideo = false ∧ State.reset.outSync = false ∧ State.reset.outTone = false ∧
  State.reset.trace = [] ∧
  (∀ s : State, s.started = false →
    exec .tick s = .next s ∧ ∀ n, exec (.setTone n) s = .refused .setToneBeforeBegin) ∧
  (∀ (i : Instr) (s t : State), exec i s = .next t → s.started = true → t.started = true)

/-- R100, R105 to R108: `BEGIN` with operands inside R104 completes, writes every register as R100 says and nothing
else. The range of the configuration is `Config.Wf`'s (log 16); a `vsyncEndLine` that fits its register is stored (log 12). -/
def Obligations.BeginWritesTheContext : Prop :=
  ∀ (s : State) (std : Standard) (w h fb : Word) (p : Profile) (k n start : Nat),
    s.started = false → s.cfg.Wf → p = s.cfg.profile std →
    1 ≤ w.toNat → 1 ≤ h.toNat → h.toNat ≤ p.displayLines →
    k = p.displayLines / h.toNat - 1 → n = h.toNat * (k + 1) →
    n / 2 ≤ p.midLine + p.startFudge → start = p.midLine + p.startFudge - n / 2 →
    start + n ≤ 2 ^ 16 - 1 → p.linesPerFrame ≤ 2 ^ 16 - 2 → p.outputStartDelay ≤ 2 ^ 16 - 1 →
    (w.toNat + 7) / 8 * h.toNat ≤ 2 ^ 16 →
    ∃ t, exec (.beginCmd std w h fb) s = .next t ∧
      t.standard = std ∧ t.width = w ∧ t.height = h ∧ t.frameBuffer = fb ∧
      t.verticalScaleConstant.toNat = k ∧ t.verticalScaleCounter.toNat = k ∧
      t.linesPerFrame.toNat = p.linesPerFrame ∧
      (p.vsyncEndLine < 2 ^ 16 → t.vsyncEndLine.toNat = p.vsyncEndLine) ∧
      t.activeRenderStartLine.toNat = start ∧ t.activeRenderEndLine.toNat = start + n ∧
      t.outputStartDelayCycles.toNat = p.outputStartDelay ∧
      t.strategySel.toNat = select s.cfg p.activeCycles w.toNat ∧
      t.currentRenderOffset = 0 ∧ t.currentLine.toNat = p.linesPerFrame ∧ t.frameCount = 0 ∧
      t.phase = .vsync ∧ t.renderActive = false ∧ t.syncMode = .h ∧
      t.outVideo = false ∧ t.outSync = false ∧ t.outTone = false ∧ t.trace = [] ∧ t.started = true ∧
      t.cfg = s.cfg ∧ t.toneCountdown = s.toneCountdown ∧ t.toneEnable = s.toneEnable ∧ t.mem = s.mem ∧
      t.syncLate = false ∧ t.syncFree = false ∧
      t.lineCycle = s.lineCycle ∧ t.pinWrites = s.pinWrites ∧ t.retLine = s.retLine ∧
      t.retPixels = s.retPixels ∧ t.commands = s.commands ∧ t.dispatch = s.dispatch ∧ t.freeIndex = s.freeIndex

/-- R103, R104: a second `BEGIN`, and one whose operands fail (b) to (f), is refused; no operation goes back to
`started = 0`. The range of the configuration is `Config.Wf`'s (log 16). -/
def Obligations.BeginRefusedOutsidePrecondition : Prop :=
  (∀ (s : State) (std : Standard) (w h fb : Word), s.started = true →
    exec (.beginCmd std w h fb) s = .refused .beginWhileStarted) ∧
  (∀ (s t : State) (i : Instr), s.started = true → exec i s = .next t → t.started = true) ∧
  ∀ (s : State) (std : Standard) (w h fb : Word) (p : Profile) (k n : Nat), s.cfg.Wf → p = s.cfg.profile std →
    k = p.displayLines / h.toNat - 1 → n = h.toNat * (k + 1) →
    s.started = false →
      ¬ (1 ≤ w.toNat ∧ 1 ≤ h.toNat ∧ h.toNat ≤ p.displayLines ∧ n / 2 ≤ p.midLine + p.startFudge ∧
        p.midLine + p.startFudge - n / 2 + n ≤ 2 ^ 16 - 1 ∧ p.linesPerFrame ≤ 2 ^ 16 - 2 ∧
        p.outputStartDelay ≤ 2 ^ 16 - 1 ∧ (w.toNat + 7) / 8 * h.toNat ≤ 2 ^ 16) →
      exec (.beginCmd std w h fb) s = .refused .beginPrecondition

/-- R110: the selector answers the greatest cost that fits the cycles per group, or entry 0 when none fits; on a table
of consecutive costs that is the clamp `min(max(r, cmin), cmax)`. -/
def Obligations.SelectTakesTheGreatestFit : Prop :=
  ∀ (c : Config) (avail w r : Nat), c.Wf → 1 ≤ w → r = avail / ((w + c.groupSize - 1) / c.groupSize) →
    ((∃ (i x : Nat), c.strats[i]? = some x ∧ x ≤ r) →
      (∃ x, c.strats[select c avail w]? = some x ∧ x ≤ r) ∧
      ∀ (i x : Nat), c.strats[i]? = some x → x ≤ r → i ≤ select c avail w) ∧
    ((∀ (i x : Nat), c.strats[i]? = some x → r < x) → select c avail w = 0) ∧
    (∀ cmin m : Nat, c.strats = List.range' cmin (m + 1) →
      c.strats[select c avail w]? = some (min (max r cmin) (cmin + m)))

/-- R112: a width is supported exactly when `r ≥ cost(0)`; the strategy selected for a supported width fits the
window; for an unsupported one the selector answers entry 0 and the line does not fit. -/
def Obligations.SupportedWidthsFit : Prop :=
  ∀ (c : Config) (avail w c0 g : Nat), c.Wf → 1 ≤ w → c.strats[0]? = some c0 →
    g = (w + c.groupSize - 1) / c.groupSize →
    (c0 * g ≤ avail ↔ c0 ≤ avail / g) ∧
    (c0 * g ≤ avail → ∃ x, c.strats[select c avail w]? = some x ∧ x * g ≤ avail) ∧
    (¬ c0 * g ≤ avail → select c avail w = 0 ∧ avail < c0 * g)

/-- R109: `maxWidth(i)` is the largest width whose line fits. -/
def Obligations.MaxWidthIsTheLargestFit : Prop :=
  ∀ (c : Config) (avail i x w : Nat), c.Wf → c.strats[i]? = some x →
    (cyclesPerLine c i w = x * ((w + c.groupSize - 1) / c.groupSize)) ∧
    maxWidth c avail i = c.groupSize * (avail / x) ∧
    (x * ((w + c.groupSize - 1) / c.groupSize) ≤ avail ↔ w ≤ c.groupSize * (avail / x))

/-! ### The phase handlers -/

/-- R135: `VSYNC_LINE`, with the frame-boundary actions of R190, completes in every state; the cycle at which `TONE_LO`
is issued is free (log 9). -/
def Obligations.VsyncLine : Prop :=
  ∀ s : State,
    (s.linesPerFrame.toNat ≤ s.currentLine.toNat →
      ∃ t, exec .vsyncLine s = .next t ∧
        t.currentLine = 0 ∧ t.frameCount = (s.frameCount + 1) % 2 ^ s.cfg.frameW ∧ t.syncMode = .v ∧
        t.toneCountdown = (if 0 < s.toneCountdown then s.toneCountdown - 1 else s.toneCountdown) ∧
        (t.toneCountdown = 0 → t.toneEnable = false ∧ t.outTone = false ∧
          ∃ c, t.pinWrites = s.pinWrites ++ [⟨.tone, false, c⟩]) ∧
        (t.toneCountdown ≠ 0 → t.toneEnable = s.toneEnable ∧ t.outTone = s.outTone ∧ t.pinWrites = s.pinWrites) ∧
        t.retLine = 0 ∧ t.retPixels = [] ∧
        t = { s with
          currentLine := t.currentLine, frameCount := t.frameCount, syncMode := t.syncMode
          toneCountdown := t.toneCountdown, toneEnable := t.toneEnable, outTone := t.outTone
          pinWrites := t.pinWrites, retLine := t.retLine, retPixels := t.retPixels }) ∧
    (s.currentLine.toNat < s.linesPerFrame.toNat → s.currentLine = s.vsyncEndLine →
      exec .vsyncLine s =
        .next { s with syncMode := .h, phase := .blank, retLine := s.currentLine, retPixels := [] }) ∧
    (s.currentLine.toNat < s.linesPerFrame.toNat → s.currentLine ≠ s.vsyncEndLine →
      exec .vsyncLine s = .next { s with retLine := s.currentLine, retPixels := [] })

/-- R140: `BLANK_LINE` completes in every state. -/
def Obligations.BlankLine : Prop :=
  ∀ s : State,
    (s.currentLine = s.activeRenderStartLine →
      exec .blankLine s =
        .next { s with
          verticalScaleCounter := s.verticalScaleConstant, currentRenderOffset := 0, phase := .active
          renderActive := true, retLine := s.currentLine, retPixels := [] }) ∧
    (s.currentLine ≠ s.activeRenderStartLine → s.currentLine.toNat + 1 = s.linesPerFrame.toNat →
      exec .blankLine s = .next { s with phase := .vsync, retLine := s.currentLine, retPixels := [] }) ∧
    (s.currentLine ≠ s.activeRenderStartLine → s.currentLine.toNat + 1 ≠ s.linesPerFrame.toNat →
      exec .blankLine s = .next { s with retLine := s.currentLine, retPixels := [] })

/-- R145: `ACTIVE_LINE` completes whenever the strategy index names an entry of the table: the row as it stands is
rendered at the live cost, then the counter and offset, then the end test. -/
def Obligations.ActiveLine : Prop :=
  ∀ (s : State) (c : Nat), s.cfg.strats[s.strategySel.toNat]? = some c →
    ∃ t, exec .activeLine s = .next t ∧
      t.retPixels = shownPixels s.mem s.frameBuffer.toNat s.currentRenderOffset.toNat s.width.toNat ∧
      t.pinWrites =
        s.pinWrites ++ renderWrites s.outputStartDelayCycles.toNat s.cfg.groupSize c t.retPixels ∧
      t.outVideo = false ∧ t.retLine = s.currentLine ∧
      (s.verticalScaleCounter.toNat = 0 →
        t.verticalScaleCounter = s.verticalScaleConstant ∧
        t.currentRenderOffset.toNat = (s.currentRenderOffset.toNat + (s.width.toNat + 7) / 8) % 2 ^ 16) ∧
      (s.verticalScaleCounter.toNat ≠ 0 →
        t.verticalScaleCounter.toNat = s.verticalScaleCounter.toNat - 1 ∧
        t.currentRenderOffset = s.currentRenderOffset) ∧
      (s.currentLine.toNat + 1 = s.activeRenderEndLine.toNat → t.phase = .blank ∧ t.renderActive = false) ∧
      (s.currentLine.toNat + 1 ≠ s.activeRenderEndLine.toNat →
        t.phase = s.phase ∧ t.renderActive = s.renderActive) ∧
      t = { s with
        verticalScaleCounter := t.verticalScaleCounter, currentRenderOffset := t.currentRenderOffset
        phase := t.phase, renderActive := t.renderActive, outVideo := t.outVideo, lineCycle := t.lineCycle
        pinWrites := t.pinWrites, retLine := t.retLine, retPixels := t.retPixels }

/-! ### `TICK` -/

/-- R131: a `TICK` before `BEGIN` changes nothing. -/
def Obligations.TickBeforeBeginDoesNothing : Prop :=
  ∀ s : State, s.started = false → exec .tick s = .next s

/-- R130, R132, R133: a `TICK` of a started block runs exactly one handler, that of the phase it finds, on the line
whose `SYNC_HI` was issued at cycle 0; then it emits the record and increments `currentLine`, and nothing else. The
cycle counter at the end of the line and the account of late `SYNC` writes are the model's choice (logs 6, 10). -/
def Obligations.TickRunsOneHandler : Prop :=
  ∀ s : State, s.started = true → (s.phase = .active → SelValid s) →
    ∃ u t,
      exec (match s.phase with | .vsync => .vsyncLine | .blank => .blankLine | .active => .activeLine)
        { s with
          lineCycle := 0, outSync := true, pinWrites := [⟨.sync, true, 0⟩]
          syncFree := s.syncFree || s.syncLate } = .next u ∧
      exec .tick s = .next t ∧
      t.currentLine.toNat = (u.currentLine.toNat + 1) % 2 ^ 16 ∧
      t.trace = s.trace ++ [⟨u.retLine, s.phase, u.syncMode, u.retPixels, liveCost s⟩] ∧
      t = { u with
        currentLine := t.currentLine, trace := t.trace, outSync := t.outSync, pinWrites := t.pinWrites
        lineCycle := t.lineCycle, syncLate := t.syncLate }

/-- R150: the transition table, on a whole `TICK`, the scale update of an active line included (R145); `currentLine`
advances by one (R133), and the registers no row names keep their values. -/
def Obligations.TickTransitionTable : Prop :=
  ∀ s : State, s.started = true → (s.phase = .active → SelValid s) →
    ∃ t, exec .tick s = .next t ∧
      (s.phase = .vsync → s.linesPerFrame.toNat ≤ s.currentLine.toNat →
        t.phase = .vsync ∧ t.currentLine = 1 ∧ t.frameCount = (s.frameCount + 1) % 2 ^ s.cfg.frameW ∧
        t.syncMode = .v ∧ t.renderActive = s.renderActive ∧
        t.toneCountdown = (if 0 < s.toneCountdown then s.toneCountdown - 1 else s.toneCountdown) ∧
        t.toneEnable = (if t.toneCountdown = 0 then false else s.toneEnable) ∧
        t.outTone = (if t.toneCountdown = 0 then false else s.outTone)) ∧
      (s.phase = .vsync → s.currentLine.toNat < s.linesPerFrame.toNat →
        t.phase = (if s.currentLine = s.vsyncEndLine then .blank else .vsync) ∧
        t.syncMode = (if s.currentLine = s.vsyncEndLine then .h else s.syncMode) ∧
        t.currentLine = s.currentLine + 1 ∧ t.frameCount = s.frameCount ∧ t.renderActive = s.renderActive ∧
        t.toneCountdown = s.toneCountdown ∧ t.toneEnable = s.toneEnable ∧ t.outTone = s.outTone) ∧
      (s.phase = .blank →
        t.phase = (if s.currentLine = s.activeRenderStartLine then .active
          else if s.currentLine.toNat + 1 = s.linesPerFrame.toNat then .vsync else .blank) ∧
        t.renderActive = (if s.currentLine = s.activeRenderStartLine then true else s.renderActive) ∧
        t.verticalScaleCounter =
          (if s.currentLine = s.activeRenderStartLine then s.verticalScaleConstant else s.verticalScaleCounter) ∧
        t.currentRenderOffset =
          (if s.currentLine = s.activeRenderStartLine then 0 else s.currentRenderOffset)) ∧
      (s.phase = .active →
        t.phase = (if s.currentLine.toNat + 1 = s.activeRenderEndLine.toNat then .blank else .active) ∧
        t.renderActive =
          (if s.currentLine.toNat + 1 = s.activeRenderEndLine.toNat then false else s.renderActive) ∧
        (s.verticalScaleCounter.toNat = 0 →
          t.verticalScaleCounter = s.verticalScaleConstant ∧
          t.currentRenderOffset.toNat = (s.currentRenderOffset.toNat + (s.width.toNat + 7) / 8) % 2 ^ 16) ∧
        (s.verticalScaleCounter.toNat ≠ 0 →
          t.verticalScaleCounter.toNat = s.verticalScaleCounter.toNat - 1 ∧
          t.currentRenderOffset = s.currentRenderOffset)) ∧
      (s.phase ≠ .active → s.phase ≠ .blank →
        t.verticalScaleCounter = s.verticalScaleCounter ∧ t.currentRenderOffset = s.currentRenderOffset) ∧
      (s.phase ≠ .vsync →
        t.currentLine = s.currentLine + 1 ∧ t.frameCount = s.frameCount ∧ t.syncMode = s.syncMode ∧
        t.toneCountdown = s.toneCountdown ∧ t.toneEnable = s.toneEnable ∧ t.outTone = s.outTone)

/-- R175: every `TICK` that has an effect appends one line record, with the number of the line, the phase the tick
found, the line's mode, the pixel bits and the cost of the live strategy. -/
def Obligations.OneLineRecordPerTick : Prop :=
  ∀ (s : State) (c : Nat), s.started = true → s.cfg.strats[s.strategySel.toNat]? = some c →
    ∃ t r, exec .tick s = .next t ∧ t.trace = s.trace ++ [r] ∧
      r.line = (if s.phase = .vsync ∧ s.linesPerFrame.toNat ≤ s.currentLine.toNat then 0 else s.currentLine) ∧
      r.phase = s.phase ∧ r.mode = t.syncMode ∧
      (s.phase ≠ .active → r.px = []) ∧
      (s.phase = .active →
        r.px = shownPixels s.mem s.frameBuffer.toNat s.currentRenderOffset.toNat s.width.toNat ∧
        r.px.length = s.width.toNat) ∧
      r.cost = c

/-- R171: on every line the sequencer drives one sync pulse, at cycle 0 and at the width of the line's mode. That a pulse
shorter than its line, with none late before it, leaves the latch at 0 in the state after the tick is the model's choice
of where that state stands (logs 6, 10). -/
def Obligations.OneSyncPulsePerLine : Prop :=
  ∀ s : State, s.started = true → (s.phase = .active → SelValid s) →
    ∃ t, exec .tick s = .next t ∧
      t.pinWrites.filter (fun w => w.pin = .sync) =
        [⟨.sync, true, 0⟩,
          ⟨.sync, false, match t.syncMode with
            | .h => (s.cfg.profile s.standard).syncWidthH
            | .v => (s.cfg.profile s.standard).syncWidthV⟩] ∧
      (s.syncFree = false → s.syncLate = false → syncWidth t < lineLength t → t.outSync = false)

/-- R172: no line outside phase `ACTIVE` writes `VIDEO`; on an active line a 1 is written only inside
`D ≤ t < D + ceil(w / G) · c`, and the last write is a 0 at the end of that window. -/
def Obligations.VideoOnlyInsideTheWindow : Prop :=
  ∀ (s : State) (c stop : Nat), s.started = true → s.cfg.Wf → s.cfg.strats[s.strategySel.toNat]? = some c →
    stop = s.outputStartDelayCycles.toNat + (s.width.toNat + s.cfg.groupSize - 1) / s.cfg.groupSize * c →
    ∃ t, exec .tick s = .next t ∧
      (s.phase ≠ .active → ∀ w ∈ t.pinWrites, w.pin ≠ .video) ∧
      (s.phase ≠ .active → t.outVideo = s.outVideo) ∧
      (s.phase = .active →
        (∀ w ∈ t.pinWrites, w.pin = .video →
          s.outputStartDelayCycles.toNat ≤ w.cycle ∧ w.cycle ≤ stop ∧ (w.level = true → w.cycle < stop)) ∧
        (t.pinWrites.filter (fun w => w.pin = .video)).getLast? = some ⟨.video, false, stop⟩ ∧
        t.outVideo = false)

/-- R254, R173: a pulse that reaches the length of its line is late and leaves `SYNC` asserted; on the next line, and on every line after it, `SYNC` is any
value at every cycle; with no late pulse the level stays that of the writes. That nothing ends it but power-on is the
model's reading of 93 U9 (log 10). -/
def Obligations.CollidedSyncIsFree : Prop :=
  ∀ s : State, s.started = true → (s.phase = .active → SelValid s) →
    ∃ t, exec .tick s = .next t ∧
      (t.syncLate = true ↔
        periodOf s.cfg (match t.syncMode with
            | .h => (s.cfg.profile s.standard).reloadH
            | .v => (s.cfg.profile s.standard).reloadV) ≤
          match t.syncMode with
            | .h => (s.cfg.profile s.standard).syncWidthH
            | .v => (s.cfg.profile s.standard).syncWidthV) ∧
      (t.syncFree = true ↔ s.syncFree = true ∨ s.syncLate = true) ∧
      (t.syncFree = true →
        (∀ cyc, syncPin t cyc = Config.collidedSync t.freeIndex cyc) ∧ t.outSync = Config.lateSync s.freeIndex) ∧
      (t.syncFree = false →
        (∀ cyc, syncPin t cyc = levelAt .sync false t.pinWrites cyc) ∧ t.outSync = t.syncLate)

/-- R176, for `G = 1`: the levels of `VIDEO` and `SYNC` on a line are the waveform of its record. `VIDEO` is 0 when the
line begins (R172), which `Inv` keeps; `SYNC` has not collided (R254, log 10). -/
def Obligations.WaveformIsTheRecords : Prop :=
  ∀ s : State, s.started = true → s.cfg.Wf → SelValid s → s.cfg.groupSize = 1 → s.outVideo = false →
    ∃ t r, exec .tick s = .next t ∧ t.trace = s.trace ++ [r] ∧
      (s.syncFree = false → s.syncLate = false → ∀ cyc, syncPin t cyc =
        decide (cyc < match r.mode with
          | .h => (s.cfg.profile s.standard).syncWidthH
          | .v => (s.cfg.profile s.standard).syncWidthV)) ∧
      (∀ cyc, levelAt .video s.outVideo t.pinWrites cyc =
        if r.phase = .active ∧ s.outputStartDelayCycles.toNat ≤ cyc ∧
            cyc < s.outputStartDelayCycles.toNat + s.width.toNat * r.cost
        then r.px.getD ((cyc - s.outputStartDelayCycles.toNat) / r.cost) false else false)

/-- R260: no rule that writes the Device Context reads a cycle count. Two started blocks that differ only in their
configuration, with `frameCount` of one width and a valid strategy index in both, leave a `TICK` with the same
context and the same records but for the costs. -/
def Obligations.TickReadsNoTime : Prop :=
  ∀ (s : State) (c : Config), c.frameW = s.cfg.frameW →
    (s.phase = .active → SelValid s ∧ s.strategySel.toNat < c.strats.length) →
    ∃ t u, exec .tick s = .next t ∧ exec .tick { s with cfg := c } = .next u ∧ contextOf t = contextOf u

/-! ### Rendering and pins -/

/-- R165 to R169, R84: each strategy of the table completes: it emits the row's pixels at its cost, leaves `VIDEO` at 0,
returns the pixel list and changes nothing else. -/
def Obligations.RendersEmitTheRow : Prop :=
  ∀ (s : State) (i : Instr) (sel c : Nat),
    ((i, sel) ∈ [(Instr.render3c, 0), (Instr.render4c, 1), (Instr.render5c, 2), (Instr.render6c, 3)] ∨
      ∃ n : BitVec 4, i = .renderAt n ∧ sel = n.toNat) →
    s.cfg.strats[sel]? = some c →
    ∃ t, exec i s = .next t ∧
      t.retPixels = shownPixels s.mem s.frameBuffer.toNat s.currentRenderOffset.toNat s.width.toNat ∧
      t.pinWrites = s.pinWrites ++ renderWrites s.outputStartDelayCycles.toNat s.cfg.groupSize c t.retPixels ∧
      t.outVideo = false ∧
      t = { s with
        outVideo := t.outVideo, lineCycle := t.lineCycle, pinWrites := t.pinWrites, retPixels := t.retPixels }

/-- A render named past the end of the strategy table is a reserved dispatch code and is refused (R86). -/
def Obligations.RendersPastTheTableRefused : Prop :=
  ∀ (s : State) (i : Instr) (sel : Nat),
    ((i, sel) ∈ [(Instr.render3c, 0), (Instr.render4c, 1), (Instr.render5c, 2), (Instr.render6c, 3)] ∨
      ∃ n : BitVec 4, i = .renderAt n ∧ sel = n.toNat) →
    s.cfg.strats.length ≤ sel →
    exec i s = .refused (.reservedDispatchCode (BitVec.ofNat 8 (0x20 + sel)))

/-- R165: the strategies are functionally interchangeable: whichever two are run, the pixel list and the state after
are the same, but for the instants of the writes. -/
def Obligations.RendersInterchangeable : Prop :=
  ∀ (s t u : State) (i j : Instr),
    (i ∈ [Instr.render3c, Instr.render4c, Instr.render5c, Instr.render6c] ∨ ∃ n, i = .renderAt n) →
    (j ∈ [Instr.render3c, Instr.render4c, Instr.render5c, Instr.render6c] ∨ ∃ n, j = .renderAt n) →
    exec i s = .next t → exec j s = .next u →
    t.retPixels = u.retPixels ∧
    t.pinWrites.map (fun w => (w.pin, w.level)) = u.pinWrites.map (fun w => (w.pin, w.level)) ∧
    { t with pinWrites := [], lineCycle := 0 } = { u with pinWrites := [], lineCycle := 0 }

/-- R165, R177: with groups of one pixel, pixel `x` is driven from cycle `D + x · c`; in a larger group the instants
within the group start at 0, do not fall and stay below the cost, and are otherwise free (log 11). -/
def Obligations.PixelInstants : Prop :=
  (∀ d c x, pixelCycle d 1 c x = d + x * c) ∧
  (∀ c g, subCycle c g 0 = 0) ∧
  (∀ c g i, subCycle c g i ≤ subCycle c g (i + 1)) ∧
  (∀ c g i, 1 ≤ c → subCycle c g i < c)

/-- R172 to R174 with R170: each pin write sets its own latch to its level and records the write, and changes nothing
else. Run alone, it is issued at the current cycle of the line (log 5). -/
def Obligations.PinWritesSetOneLatch : Prop :=
  ∀ s : State,
    exec .vidLo s =
      .next { s with outVideo := false, pinWrites := s.pinWrites ++ [⟨.video, false, s.lineCycle⟩] } ∧
    exec .vidHi s =
      .next { s with outVideo := true, pinWrites := s.pinWrites ++ [⟨.video, true, s.lineCycle⟩] } ∧
    exec .syncLo s =
      .next { s with outSync := false, pinWrites := s.pinWrites ++ [⟨.sync, false, s.lineCycle⟩] } ∧
    exec .syncHi s =
      .next { s with outSync := true, pinWrites := s.pinWrites ++ [⟨.sync, true, s.lineCycle⟩] } ∧
    exec .toneLo s =
      .next { s with outTone := false, pinWrites := s.pinWrites ++ [⟨.tone, false, s.lineCycle⟩] }

/-! ### Tone -/

/-- R195: `SET_TONE` before `BEGIN` is refused; after it, with an operand `TONE_W` bits hold (R83), it writes the countdown and the enable, and `TONE` when `n` is
0, and nothing else. -/
def Obligations.SetTone : Prop :=
  ∀ (s : State) (n : Int),
    (s.started = false → exec (.setTone n) s = .refused .setToneBeforeBegin) ∧
    (s.started = true → fitsSigned s.cfg.toneW n = true → n = 0 →
      exec (.setTone n) s = .next { s with toneCountdown := 0, toneEnable := false, outTone := false }) ∧
    (s.started = true → fitsSigned s.cfg.toneW n = true → n ≠ 0 →
      exec (.setTone n) s = .next { s with toneCountdown := n, toneEnable := true })

/-- R191: the three cases of the countdown at a frame boundary. -/
def Obligations.FrameBoundaryTone : Prop :=
  ∀ s : State, s.started = true → s.phase = .vsync → s.linesPerFrame.toNat ≤ s.currentLine.toNat →
    ∃ t, exec .tick s = .next t ∧
      (s.toneCountdown < 0 →
        t.toneCountdown = s.toneCountdown ∧ t.toneEnable = s.toneEnable ∧ t.outTone = s.outTone ∧
        ∀ w ∈ t.pinWrites, w.pin ≠ .tone) ∧
      (1 < s.toneCountdown →
        t.toneCountdown = s.toneCountdown - 1 ∧ t.toneEnable = s.toneEnable ∧ t.outTone = s.outTone ∧
        ∀ w ∈ t.pinWrites, w.pin ≠ .tone) ∧
      (s.toneCountdown = 1 ∨ s.toneCountdown = 0 →
        t.toneCountdown = 0 ∧ t.toneEnable = false ∧ t.outTone = false ∧
        ∃ c, t.pinWrites.filter (fun w => w.pin = .tone) = [⟨.tone, false, c⟩])

/-- R193, on frame boundaries that are ticks (R190): after `SET_TONE n` from a running state, with `b` frame boundaries
among the ticks since: for `n ≥ 1` the tone is enabled while `b < n`, so at the entry of each of the next `n` boundaries,
and stopped from the `n`-th on; for `n = 0` it is stopped at once; for `n < 0` no boundary stops it; a later `SET_TONE`
replaces the countdown. Under a well-formed geometry the `b`-th boundary comes within `b · L + 1` ticks. -/
def Obligations.ToneDuration : Prop :=
  ∀ (s : State) (n : Int), Running s → fitsSigned s.cfg.toneW n = true →
    ∃ t, exec (.setTone n) s = .next t ∧
      (∀ j b, b = boundariesIn j t →
        ∃ u, runTicks j t = .next u ∧
          (1 ≤ n → (b : Int) < n → u.toneEnable = true ∧ u.toneCountdown = n - b) ∧
          (1 ≤ n → n ≤ (b : Int) → u.toneEnable = false ∧ u.outTone = false ∧ u.toneCountdown = 0) ∧
          (n = 0 → u.toneEnable = false ∧ u.outTone = false ∧ u.toneCountdown = 0) ∧
          (n < 0 → u.toneEnable = true ∧ u.toneCountdown = n) ∧
          ∀ m : Int, fitsSigned s.cfg.toneW m = true →
            ∃ v, exec (.setTone m) u = .next v ∧ v.toneCountdown = m ∧ Running v) ∧
      (GeometryWf s → ∀ b, ∃ j, j ≤ b * s.linesPerFrame.toNat + 1 ∧ boundariesIn j t = b)

/-- R192: once stopped, the `TONE` output is 0 until a later `SET_TONE` with a non-zero operand. -/
def Obligations.StoppedToneStaysSilent : Prop :=
  ∀ (s t : State) (i : Instr), ToneSilent s → (∀ n, n ≠ 0 → i ≠ .setTone n) → exec i s = .next t →
    ToneSilent t ∧ tonePin t = false

/-- R174: the block never asserts the tone output: no operation raises its latch and none issues a write of 1. -/
def Obligations.BlockNeverAssertsTone : Prop :=
  ∀ (s t : State) (i : Instr), exec i s = .next t →
    (t.outTone = true → s.outTone = true) ∧
    (∀ w ∈ t.pinWrites, w.pin = .tone → w.level = true → w ∈ s.pinWrites)

/-! ### The frame buffer -/

/-- R205, R50: `FBW` completes in every state, stores one byte and changes nothing else. -/
def Obligations.FbwStoresOneByte : Prop :=
  ∀ (s : State) (a : Word) (d : Byte),
    ∃ t, exec (.fbw a d) s = .next t ∧ memRead t.mem a.toNat = d ∧
      (∀ x, x ≠ a.toNat → memRead t.mem x = memRead s.mem x) ∧ t = { s with mem := t.mem }

/-- The block never writes the frame buffer: only `FBW` changes memory (R24, R50). -/
def Obligations.OnlyFbwWritesMemory : Prop :=
  ∀ (s t : State) (i : Instr), (∀ a d, i ≠ .fbw a d) → exec i s = .next t → t.mem = s.mem

/-- A store to a byte the line does not fetch, or on a line that renders nothing, is not seen by the tick: the two may
be done in either order (R60, R163, R205). -/
def Obligations.UnfetchedStoreCommutesWithTick : Prop :=
  ∀ (s : State) (a : Word) (d : Byte),
    (s.phase = .active →
      ∀ x, x < s.width.toNat →
        (s.frameBuffer.toNat + s.currentRenderOffset.toNat + x / 8) % 2 ^ 16 ≠ a.toNat) →
    andThen (exec (.fbw a d) s) (exec .tick) = andThen (exec .tick s) (exec (.fbw a d))

/-- Every frame-buffer read of a running block with a well-formed geometry lies in `FB_REGION` (R58). -/
def Obligations.ReadsStayInTheRegion : Prop :=
  ∀ s : State, Running s → GeometryWf s → s.phase = .active →
    ∀ j, j < rowBytes s → inFbRegion s (fetchAddr s j)

/-! ### The whole machine -/

/-- Every step keeps the invariant (R27, R151, R153, `VIDEO` at 0 between operations by R172, and the form of the
memory). -/
def Obligations.EveryStepKeepsTheInvariant : Prop :=
  ∀ s t : State, Inv s → step s = .next t → Inv t

/-- The invariant holds at power-on; that memory lists nothing there and `frameCount` is 0 are the model's choices
(logs 2, 3). -/
def Obligations.ResetHasTheInvariant : Prop := Inv State.reset

/-- R27 with R102: what holds after `BEGIN` and after every operation under a well-formed geometry; `currentLine` stands
at `linesPerFrame` only where the next tick is a frame boundary. `ConfigRegs` carries the model's choices for the range of
the configuration and for a `vsyncEndLine` too wide for its register (logs 16, 12). -/
def Obligations.SpecInvariants : Prop :=
  ∀ s t : State, Inv s → step s = .next t → t.started = true → GeometryWf t →
    t.currentLine.toNat ≤ t.linesPerFrame.toNat ∧
    (t.currentLine = t.linesPerFrame → t.phase = .vsync) ∧
    t.verticalScaleCounter.toNat ≤ t.verticalScaleConstant.toNat ∧
    0 < t.width.toNat ∧ 0 < t.height.toNat ∧ (t.renderActive = true ↔ t.phase = .active) ∧
    phaseCode t.phase ≠ 0b11#2 ∧ ConfigRegs t ∧
    (s.started = true →
      t.width = s.width ∧ t.height = s.height ∧ t.verticalScaleConstant = s.verticalScaleConstant ∧
      t.activeRenderStartLine = s.activeRenderStartLine ∧ t.activeRenderEndLine = s.activeRenderEndLine ∧
      t.vsyncEndLine = s.vsyncEndLine ∧ t.linesPerFrame = s.linesPerFrame ∧
      t.outputStartDelayCycles = s.outputStartDelayCycles ∧ t.frameBuffer = s.frameBuffer ∧
      t.strategySel = s.strategySel ∧ t.standard = s.standard)

/-- R102: after `BEGIN` no step changes a configuration register. -/
def Obligations.ConfigurationRegistersFixed : Prop :=
  ∀ s t : State, s.started = true → step s = .next t →
    t.width = s.width ∧ t.height = s.height ∧ t.verticalScaleConstant = s.verticalScaleConstant ∧
    t.activeRenderStartLine = s.activeRenderStartLine ∧ t.activeRenderEndLine = s.activeRenderEndLine ∧
    t.vsyncEndLine = s.vsyncEndLine ∧ t.linesPerFrame = s.linesPerFrame ∧
    t.outputStartDelayCycles = s.outputStartDelayCycles ∧ t.frameBuffer = s.frameBuffer ∧
    t.strategySel = s.strategySel ∧ t.standard = s.standard

/-- The configuration is changed by no operation (R6), whatever it is. That the state carries it is the model's choice
(log 1). -/
def Obligations.ConfigurationNeverWritten : Prop :=
  ∀ (s t : State) (i : Instr), exec i s = .next t → t.cfg = s.cfg

/-- No state is terminal (R150): from every running state, any number of ticks completes and the machine still runs. -/
def Obligations.TicksGoOnForever : Prop :=
  ∀ (n : Nat) (s : State), Running s → ∃ t, runTicks n s = .next t ∧ Running t

/-- The course of one frame with a placed picture (R151): after tick `j` of the frame, the line counter, the phase and
the sync mode, `frameCount` having been incremented on the first tick; its record has line `j − 1`, the phase at entry
and the line's mode. -/
def Obligations.CourseOfAFrame : Prop :=
  ∀ (s : State) (j : Nat), Running s → VsyncWf s → PicturePlaced s → s.phase = .vsync →
    s.currentLine = s.linesPerFrame → 1 ≤ j → j ≤ s.linesPerFrame.toNat →
    ∃ t, runTicks j s = .next t ∧ t.currentLine.toNat = j ∧
      t.frameCount = (s.frameCount + 1) % 2 ^ s.cfg.frameW ∧
      t.phase = (if j ≤ s.vsyncEndLine.toNat then .vsync
        else if j ≤ s.activeRenderStartLine.toNat then .blank
        else if j + 1 ≤ s.activeRenderEndLine.toNat then .active
        else if j + 1 ≤ s.linesPerFrame.toNat then .blank else .vsync) ∧
      t.syncMode = (if j ≤ s.vsyncEndLine.toNat then .v else .h) ∧
      ∃ r, t.trace.getLast? = some r ∧ r.line.toNat = j - 1 ∧ r.mode = t.syncMode ∧
        r.phase = (if j ≤ s.vsyncEndLine.toNat + 1 then .vsync
          else if j ≤ s.activeRenderStartLine.toNat + 1 then .blank
          else if j ≤ s.activeRenderEndLine.toNat then .active else .blank)

/-- R152: every frame takes exactly `L` ticks and increments `frameCount` exactly once, on its first tick; counted from
`currentLine = 0` with no boundary taken, the increment is not among the first `L` ticks. -/
def Obligations.AFrameTakesLTicks : Prop :=
  ∀ (s : State) (m : Nat), Running s → GeometryWf s → s.phase = .vsync →
    (s.currentLine = s.linesPerFrame →
      ∃ t, runTicks (m * s.linesPerFrame.toNat) s = .next t ∧ t.phase = .vsync ∧
        t.currentLine = s.linesPerFrame ∧ t.frameCount = (s.frameCount + m) % 2 ^ s.cfg.frameW) ∧
    (s.currentLine = s.linesPerFrame →
      ∃ t, runTicks 1 s = .next t ∧ t.frameCount = (s.frameCount + 1) % 2 ^ s.cfg.frameW) ∧
    (s.currentLine = 0 →
      ∃ t u, runTicks s.linesPerFrame.toNat s = .next t ∧ t.phase = .vsync ∧ t.currentLine = s.linesPerFrame ∧
        t.frameCount = s.frameCount ∧
        runTicks (s.linesPerFrame.toNat + 1) s = .next u ∧
        u.frameCount = (s.frameCount + 1) % 2 ^ s.cfg.frameW)

/-- The lines of a frame last `V · T_V + (L − V) · T_H` cycles together (R151, R177). -/
def Obligations.AFrameTakesItsCycles : Prop :=
  ∀ (s : State) (tv th : Nat), Running s → GeometryWf s → s.phase = .vsync → s.currentLine = s.linesPerFrame →
    tv = periodOf s.cfg (s.cfg.profile s.standard).reloadV → th = periodOf s.cfg (s.cfg.profile s.standard).reloadH →
    ∃ t rs, runTicks s.linesPerFrame.toNat s = .next t ∧ t.trace = s.trace ++ rs ∧
      rs.length = s.linesPerFrame.toNat ∧
      (rs.map (recordLength s.cfg (s.cfg.profile s.standard))).sum =
        s.vsyncEndLine.toNat * tv + (s.linesPerFrame.toNat - s.vsyncEndLine.toNat) * th

/-- Under R250 (W3) every pin write of a tick falls inside its line (R252, R261). -/
def Obligations.WorkEndsWithinTheLine : Prop :=
  ∀ s : State, Running s → GeometryWf s → TimingWf s →
    ∃ t, exec .tick s = .next t ∧
      ∀ w ∈ t.pinWrites, w.cycle < periodOf s.cfg (match t.syncMode with
        | .v => (s.cfg.profile s.standard).reloadV
        | .h => (s.cfg.profile s.standard).reloadH)

/-- The active line `n` shows row `(n − S − 1) div (k + 1)`, read at that row's offset, and that row is one of the
picture's (R153). -/
def Obligations.LinesShowTheirRow : Prop :=
  ∀ (s : State) (row : Nat), Running s → GeometryWf s → s.phase = .active →
    row = (s.currentLine.toNat - s.activeRenderStartLine.toNat - 1) / (s.verticalScaleConstant.toNat + 1) →
    row < s.height.toNat ∧
    ∃ t r, exec .tick s = .next t ∧ t.trace = s.trace ++ [r] ∧ r.line = s.currentLine ∧
      r.px = shownPixels s.mem s.frameBuffer.toNat ((s.width.toNat + 7) / 8 * row) s.width.toNat

/-- R251 (a): with `V = 0` or `V ≥ L` the machine stays in `VSYNC` for ever, frames still take `L` ticks, `frameCount`
counts them and `syncMode` stays `V`. That such a geometry is followed and not refused is the model's choice (log 14). -/
def Obligations.DegenerateVsyncStays : Prop :=
  ∀ (s : State) (m : Nat), s.started = true → s.phase = .vsync → s.currentLine = s.linesPerFrame →
    1 ≤ s.linesPerFrame.toNat →
    (s.vsyncEndLine = 0 ∨ s.linesPerFrame.toNat ≤ s.vsyncEndLine.toNat) → s.frameCount < 2 ^ s.cfg.frameW →
    (∀ j, ∃ t, runTicks j s = .next t ∧ t.phase = .vsync ∧ (1 ≤ j → t.syncMode = .v)) ∧
    ∃ t, runTicks (m * s.linesPerFrame.toNat) s = .next t ∧ t.currentLine = s.linesPerFrame ∧
      t.frameCount = (s.frameCount + m) % 2 ^ s.cfg.frameW
end

