-- ==== Sys2Proof/Laws/State.lean ====
section
/-!
SUPPORT. One lemma per field per update of the state, each true by `rfl`, so that no proof unfolds a record update.
-/

namespace Sys2Proof.Machine

/-! ### `pinWrite` -/

@[simp] theorem pinWrite_cfg (w : PinWrite) (s : State) : (pinWrite w s).cfg = s.cfg := rfl
@[simp] theorem pinWrite_phase (w : PinWrite) (s : State) : (pinWrite w s).phase = s.phase := rfl
@[simp] theorem pinWrite_currentLine (w : PinWrite) (s : State) : (pinWrite w s).currentLine = s.currentLine := rfl
@[simp] theorem pinWrite_frameCount (w : PinWrite) (s : State) : (pinWrite w s).frameCount = s.frameCount := rfl
@[simp] theorem pinWrite_renderActive (w : PinWrite) (s : State) : (pinWrite w s).renderActive = s.renderActive := rfl
@[simp] theorem pinWrite_width (w : PinWrite) (s : State) : (pinWrite w s).width = s.width := rfl
@[simp] theorem pinWrite_height (w : PinWrite) (s : State) : (pinWrite w s).height = s.height := rfl
@[simp] theorem pinWrite_verticalScaleCounter (w : PinWrite) (s : State) : (pinWrite w s).verticalScaleCounter = s.verticalScaleCounter := rfl
@[simp] theorem pinWrite_verticalScaleConstant (w : PinWrite) (s : State) : (pinWrite w s).verticalScaleConstant = s.verticalScaleConstant := rfl
@[simp] theorem pinWrite_activeRenderStartLine (w : PinWrite) (s : State) : (pinWrite w s).activeRenderStartLine = s.activeRenderStartLine := rfl
@[simp] theorem pinWrite_activeRenderEndLine (w : PinWrite) (s : State) : (pinWrite w s).activeRenderEndLine = s.activeRenderEndLine := rfl
@[simp] theorem pinWrite_vsyncEndLine (w : PinWrite) (s : State) : (pinWrite w s).vsyncEndLine = s.vsyncEndLine := rfl
@[simp] theorem pinWrite_linesPerFrame (w : PinWrite) (s : State) : (pinWrite w s).linesPerFrame = s.linesPerFrame := rfl
@[simp] theorem pinWrite_outputStartDelayCycles (w : PinWrite) (s : State) : (pinWrite w s).outputStartDelayCycles = s.outputStartDelayCycles := rfl
@[simp] theorem pinWrite_frameBuffer (w : PinWrite) (s : State) : (pinWrite w s).frameBuffer = s.frameBuffer := rfl
@[simp] theorem pinWrite_currentRenderOffset (w : PinWrite) (s : State) : (pinWrite w s).currentRenderOffset = s.currentRenderOffset := rfl
@[simp] theorem pinWrite_strategySel (w : PinWrite) (s : State) : (pinWrite w s).strategySel = s.strategySel := rfl
@[simp] theorem pinWrite_syncMode (w : PinWrite) (s : State) : (pinWrite w s).syncMode = s.syncMode := rfl
@[simp] theorem pinWrite_toneCountdown (w : PinWrite) (s : State) : (pinWrite w s).toneCountdown = s.toneCountdown := rfl
@[simp] theorem pinWrite_toneEnable (w : PinWrite) (s : State) : (pinWrite w s).toneEnable = s.toneEnable := rfl
@[simp] theorem pinWrite_started (w : PinWrite) (s : State) : (pinWrite w s).started = s.started := rfl
@[simp] theorem pinWrite_standard (w : PinWrite) (s : State) : (pinWrite w s).standard = s.standard := rfl
@[simp] theorem pinWrite_outVideo (w : PinWrite) (s : State) : (pinWrite w s).outVideo = if w.pin = .video then w.level else s.outVideo := rfl
@[simp] theorem pinWrite_outSync (w : PinWrite) (s : State) : (pinWrite w s).outSync = if w.pin = .sync then w.level else s.outSync := rfl
@[simp] theorem pinWrite_outTone (w : PinWrite) (s : State) : (pinWrite w s).outTone = if w.pin = .tone then w.level else s.outTone := rfl
@[simp] theorem pinWrite_lineCycle (w : PinWrite) (s : State) : (pinWrite w s).lineCycle = s.lineCycle := rfl
@[simp] theorem pinWrite_pinWrites (w : PinWrite) (s : State) : (pinWrite w s).pinWrites = s.pinWrites ++ [w] := rfl
@[simp] theorem pinWrite_retLine (w : PinWrite) (s : State) : (pinWrite w s).retLine = s.retLine := rfl
@[simp] theorem pinWrite_retPixels (w : PinWrite) (s : State) : (pinWrite w s).retPixels = s.retPixels := rfl
@[simp] theorem pinWrite_trace (w : PinWrite) (s : State) : (pinWrite w s).trace = s.trace := rfl
@[simp] theorem pinWrite_mem (w : PinWrite) (s : State) : (pinWrite w s).mem = s.mem := rfl
@[simp] theorem pinWrite_syncLate (w : PinWrite) (s : State) : (pinWrite w s).syncLate = s.syncLate := rfl
@[simp] theorem pinWrite_syncFree (w : PinWrite) (s : State) : (pinWrite w s).syncFree = s.syncFree := rfl
@[simp] theorem pinWrite_commands (w : PinWrite) (s : State) : (pinWrite w s).commands = s.commands := rfl
@[simp] theorem pinWrite_dispatch (w : PinWrite) (s : State) : (pinWrite w s).dispatch = s.dispatch := rfl
@[simp] theorem pinWrite_freeIndex (w : PinWrite) (s : State) : (pinWrite w s).freeIndex = s.freeIndex := rfl

/-! ### `waitUntil` -/

@[simp] theorem waitUntil_cfg (t : Nat) (s : State) : (waitUntil t s).cfg = s.cfg := rfl
@[simp] theorem waitUntil_phase (t : Nat) (s : State) : (waitUntil t s).phase = s.phase := rfl
@[simp] theorem waitUntil_currentLine (t : Nat) (s : State) : (waitUntil t s).currentLine = s.currentLine := rfl
@[simp] theorem waitUntil_frameCount (t : Nat) (s : State) : (waitUntil t s).frameCount = s.frameCount := rfl
@[simp] theorem waitUntil_renderActive (t : Nat) (s : State) : (waitUntil t s).renderActive = s.renderActive := rfl
@[simp] theorem waitUntil_width (t : Nat) (s : State) : (waitUntil t s).width = s.width := rfl
@[simp] theorem waitUntil_height (t : Nat) (s : State) : (waitUntil t s).height = s.height := rfl
@[simp] theorem waitUntil_verticalScaleCounter (t : Nat) (s : State) : (waitUntil t s).verticalScaleCounter = s.verticalScaleCounter := rfl
@[simp] theorem waitUntil_verticalScaleConstant (t : Nat) (s : State) : (waitUntil t s).verticalScaleConstant = s.verticalScaleConstant := rfl
@[simp] theorem waitUntil_activeRenderStartLine (t : Nat) (s : State) : (waitUntil t s).activeRenderStartLine = s.activeRenderStartLine := rfl
@[simp] theorem waitUntil_activeRenderEndLine (t : Nat) (s : State) : (waitUntil t s).activeRenderEndLine = s.activeRenderEndLine := rfl
@[simp] theorem waitUntil_vsyncEndLine (t : Nat) (s : State) : (waitUntil t s).vsyncEndLine = s.vsyncEndLine := rfl
@[simp] theorem waitUntil_linesPerFrame (t : Nat) (s : State) : (waitUntil t s).linesPerFrame = s.linesPerFrame := rfl
@[simp] theorem waitUntil_outputStartDelayCycles (t : Nat) (s : State) : (waitUntil t s).outputStartDelayCycles = s.outputStartDelayCycles := rfl
@[simp] theorem waitUntil_frameBuffer (t : Nat) (s : State) : (waitUntil t s).frameBuffer = s.frameBuffer := rfl
@[simp] theorem waitUntil_currentRenderOffset (t : Nat) (s : State) : (waitUntil t s).currentRenderOffset = s.currentRenderOffset := rfl
@[simp] theorem waitUntil_strategySel (t : Nat) (s : State) : (waitUntil t s).strategySel = s.strategySel := rfl
@[simp] theorem waitUntil_syncMode (t : Nat) (s : State) : (waitUntil t s).syncMode = s.syncMode := rfl
@[simp] theorem waitUntil_toneCountdown (t : Nat) (s : State) : (waitUntil t s).toneCountdown = s.toneCountdown := rfl
@[simp] theorem waitUntil_toneEnable (t : Nat) (s : State) : (waitUntil t s).toneEnable = s.toneEnable := rfl
@[simp] theorem waitUntil_started (t : Nat) (s : State) : (waitUntil t s).started = s.started := rfl
@[simp] theorem waitUntil_standard (t : Nat) (s : State) : (waitUntil t s).standard = s.standard := rfl
@[simp] theorem waitUntil_outVideo (t : Nat) (s : State) : (waitUntil t s).outVideo = s.outVideo := rfl
@[simp] theorem waitUntil_outSync (t : Nat) (s : State) : (waitUntil t s).outSync = s.outSync := rfl
@[simp] theorem waitUntil_outTone (t : Nat) (s : State) : (waitUntil t s).outTone = s.outTone := rfl
@[simp] theorem waitUntil_lineCycle (t : Nat) (s : State) : (waitUntil t s).lineCycle = t := rfl
@[simp] theorem waitUntil_pinWrites (t : Nat) (s : State) : (waitUntil t s).pinWrites = s.pinWrites := rfl
@[simp] theorem waitUntil_retLine (t : Nat) (s : State) : (waitUntil t s).retLine = s.retLine := rfl
@[simp] theorem waitUntil_retPixels (t : Nat) (s : State) : (waitUntil t s).retPixels = s.retPixels := rfl
@[simp] theorem waitUntil_trace (t : Nat) (s : State) : (waitUntil t s).trace = s.trace := rfl
@[simp] theorem waitUntil_mem (t : Nat) (s : State) : (waitUntil t s).mem = s.mem := rfl
@[simp] theorem waitUntil_syncLate (t : Nat) (s : State) : (waitUntil t s).syncLate = s.syncLate := rfl
@[simp] theorem waitUntil_syncFree (t : Nat) (s : State) : (waitUntil t s).syncFree = s.syncFree := rfl
@[simp] theorem waitUntil_commands (t : Nat) (s : State) : (waitUntil t s).commands = s.commands := rfl
@[simp] theorem waitUntil_dispatch (t : Nat) (s : State) : (waitUntil t s).dispatch = s.dispatch := rfl
@[simp] theorem waitUntil_freeIndex (t : Nat) (s : State) : (waitUntil t s).freeIndex = s.freeIndex := rfl

/-! ### `memWrite` -/

@[simp] theorem memWrite_cfg (a : Word) (v : Byte) (s : State) : (memWrite a v s).cfg = s.cfg := rfl
@[simp] theorem memWrite_phase (a : Word) (v : Byte) (s : State) : (memWrite a v s).phase = s.phase := rfl
@[simp] theorem memWrite_currentLine (a : Word) (v : Byte) (s : State) : (memWrite a v s).currentLine = s.currentLine := rfl
@[simp] theorem memWrite_frameCount (a : Word) (v : Byte) (s : State) : (memWrite a v s).frameCount = s.frameCount := rfl
@[simp] theorem memWrite_renderActive (a : Word) (v : Byte) (s : State) : (memWrite a v s).renderActive = s.renderActive := rfl
@[simp] theorem memWrite_width (a : Word) (v : Byte) (s : State) : (memWrite a v s).width = s.width := rfl
@[simp] theorem memWrite_height (a : Word) (v : Byte) (s : State) : (memWrite a v s).height = s.height := rfl
@[simp] theorem memWrite_verticalScaleCounter (a : Word) (v : Byte) (s : State) : (memWrite a v s).verticalScaleCounter = s.verticalScaleCounter := rfl
@[simp] theorem memWrite_verticalScaleConstant (a : Word) (v : Byte) (s : State) : (memWrite a v s).verticalScaleConstant = s.verticalScaleConstant := rfl
@[simp] theorem memWrite_activeRenderStartLine (a : Word) (v : Byte) (s : State) : (memWrite a v s).activeRenderStartLine = s.activeRenderStartLine := rfl
@[simp] theorem memWrite_activeRenderEndLine (a : Word) (v : Byte) (s : State) : (memWrite a v s).activeRenderEndLine = s.activeRenderEndLine := rfl
@[simp] theorem memWrite_vsyncEndLine (a : Word) (v : Byte) (s : State) : (memWrite a v s).vsyncEndLine = s.vsyncEndLine := rfl
@[simp] theorem memWrite_linesPerFrame (a : Word) (v : Byte) (s : State) : (memWrite a v s).linesPerFrame = s.linesPerFrame := rfl
@[simp] theorem memWrite_outputStartDelayCycles (a : Word) (v : Byte) (s : State) : (memWrite a v s).outputStartDelayCycles = s.outputStartDelayCycles := rfl
@[simp] theorem memWrite_frameBuffer (a : Word) (v : Byte) (s : State) : (memWrite a v s).frameBuffer = s.frameBuffer := rfl
@[simp] theorem memWrite_currentRenderOffset (a : Word) (v : Byte) (s : State) : (memWrite a v s).currentRenderOffset = s.currentRenderOffset := rfl
@[simp] theorem memWrite_strategySel (a : Word) (v : Byte) (s : State) : (memWrite a v s).strategySel = s.strategySel := rfl
@[simp] theorem memWrite_syncMode (a : Word) (v : Byte) (s : State) : (memWrite a v s).syncMode = s.syncMode := rfl
@[simp] theorem memWrite_toneCountdown (a : Word) (v : Byte) (s : State) : (memWrite a v s).toneCountdown = s.toneCountdown := rfl
@[simp] theorem memWrite_toneEnable (a : Word) (v : Byte) (s : State) : (memWrite a v s).toneEnable = s.toneEnable := rfl
@[simp] theorem memWrite_started (a : Word) (v : Byte) (s : State) : (memWrite a v s).started = s.started := rfl
@[simp] theorem memWrite_standard (a : Word) (v : Byte) (s : State) : (memWrite a v s).standard = s.standard := rfl
@[simp] theorem memWrite_outVideo (a : Word) (v : Byte) (s : State) : (memWrite a v s).outVideo = s.outVideo := rfl
@[simp] theorem memWrite_outSync (a : Word) (v : Byte) (s : State) : (memWrite a v s).outSync = s.outSync := rfl
@[simp] theorem memWrite_outTone (a : Word) (v : Byte) (s : State) : (memWrite a v s).outTone = s.outTone := rfl
@[simp] theorem memWrite_lineCycle (a : Word) (v : Byte) (s : State) : (memWrite a v s).lineCycle = s.lineCycle := rfl
@[simp] theorem memWrite_pinWrites (a : Word) (v : Byte) (s : State) : (memWrite a v s).pinWrites = s.pinWrites := rfl
@[simp] theorem memWrite_retLine (a : Word) (v : Byte) (s : State) : (memWrite a v s).retLine = s.retLine := rfl
@[simp] theorem memWrite_retPixels (a : Word) (v : Byte) (s : State) : (memWrite a v s).retPixels = s.retPixels := rfl
@[simp] theorem memWrite_trace (a : Word) (v : Byte) (s : State) : (memWrite a v s).trace = s.trace := rfl
@[simp] theorem memWrite_mem (a : Word) (v : Byte) (s : State) : (memWrite a v s).mem = Memory.put s.mem a.toNat v := rfl
@[simp] theorem memWrite_syncLate (a : Word) (v : Byte) (s : State) : (memWrite a v s).syncLate = s.syncLate := rfl
@[simp] theorem memWrite_syncFree (a : Word) (v : Byte) (s : State) : (memWrite a v s).syncFree = s.syncFree := rfl
@[simp] theorem memWrite_commands (a : Word) (v : Byte) (s : State) : (memWrite a v s).commands = s.commands := rfl
@[simp] theorem memWrite_dispatch (a : Word) (v : Byte) (s : State) : (memWrite a v s).dispatch = s.dispatch := rfl
@[simp] theorem memWrite_freeIndex (a : Word) (v : Byte) (s : State) : (memWrite a v s).freeIndex = s.freeIndex := rfl

/-! ### `tickEntry` -/

@[simp] theorem tickEntry_cfg (s : State) : (tickEntry s).cfg = s.cfg := rfl
@[simp] theorem tickEntry_phase (s : State) : (tickEntry s).phase = s.phase := rfl
@[simp] theorem tickEntry_currentLine (s : State) : (tickEntry s).currentLine = s.currentLine := rfl
@[simp] theorem tickEntry_frameCount (s : State) : (tickEntry s).frameCount = s.frameCount := rfl
@[simp] theorem tickEntry_renderActive (s : State) : (tickEntry s).renderActive = s.renderActive := rfl
@[simp] theorem tickEntry_width (s : State) : (tickEntry s).width = s.width := rfl
@[simp] theorem tickEntry_height (s : State) : (tickEntry s).height = s.height := rfl
@[simp] theorem tickEntry_verticalScaleCounter (s : State) : (tickEntry s).verticalScaleCounter = s.verticalScaleCounter := rfl
@[simp] theorem tickEntry_verticalScaleConstant (s : State) : (tickEntry s).verticalScaleConstant = s.verticalScaleConstant := rfl
@[simp] theorem tickEntry_activeRenderStartLine (s : State) : (tickEntry s).activeRenderStartLine = s.activeRenderStartLine := rfl
@[simp] theorem tickEntry_activeRenderEndLine (s : State) : (tickEntry s).activeRenderEndLine = s.activeRenderEndLine := rfl
@[simp] theorem tickEntry_vsyncEndLine (s : State) : (tickEntry s).vsyncEndLine = s.vsyncEndLine := rfl
@[simp] theorem tickEntry_linesPerFrame (s : State) : (tickEntry s).linesPerFrame = s.linesPerFrame := rfl
@[simp] theorem tickEntry_outputStartDelayCycles (s : State) : (tickEntry s).outputStartDelayCycles = s.outputStartDelayCycles := rfl
@[simp] theorem tickEntry_frameBuffer (s : State) : (tickEntry s).frameBuffer = s.frameBuffer := rfl
@[simp] theorem tickEntry_currentRenderOffset (s : State) : (tickEntry s).currentRenderOffset = s.currentRenderOffset := rfl
@[simp] theorem tickEntry_strategySel (s : State) : (tickEntry s).strategySel = s.strategySel := rfl
@[simp] theorem tickEntry_syncMode (s : State) : (tickEntry s).syncMode = s.syncMode := rfl
@[simp] theorem tickEntry_toneCountdown (s : State) : (tickEntry s).toneCountdown = s.toneCountdown := rfl
@[simp] theorem tickEntry_toneEnable (s : State) : (tickEntry s).toneEnable = s.toneEnable := rfl
@[simp] theorem tickEntry_started (s : State) : (tickEntry s).started = s.started := rfl
@[simp] theorem tickEntry_standard (s : State) : (tickEntry s).standard = s.standard := rfl
@[simp] theorem tickEntry_outVideo (s : State) : (tickEntry s).outVideo = s.outVideo := rfl
@[simp] theorem tickEntry_outSync (s : State) : (tickEntry s).outSync = true := rfl
@[simp] theorem tickEntry_outTone (s : State) : (tickEntry s).outTone = s.outTone := rfl
@[simp] theorem tickEntry_lineCycle (s : State) : (tickEntry s).lineCycle = 0 := rfl
@[simp] theorem tickEntry_pinWrites (s : State) : (tickEntry s).pinWrites = [⟨.sync, true, 0⟩] := rfl
@[simp] theorem tickEntry_retLine (s : State) : (tickEntry s).retLine = s.retLine := rfl
@[simp] theorem tickEntry_retPixels (s : State) : (tickEntry s).retPixels = s.retPixels := rfl
@[simp] theorem tickEntry_trace (s : State) : (tickEntry s).trace = s.trace := rfl
@[simp] theorem tickEntry_mem (s : State) : (tickEntry s).mem = s.mem := rfl
@[simp] theorem tickEntry_syncLate (s : State) : (tickEntry s).syncLate = s.syncLate := rfl
@[simp] theorem tickEntry_syncFree (s : State) : (tickEntry s).syncFree = (s.syncFree || s.syncLate) := rfl
@[simp] theorem tickEntry_commands (s : State) : (tickEntry s).commands = s.commands := rfl
@[simp] theorem tickEntry_dispatch (s : State) : (tickEntry s).dispatch = s.dispatch := rfl
@[simp] theorem tickEntry_freeIndex (s : State) : (tickEntry s).freeIndex = s.freeIndex := rfl

/-! ### `emitRecord` -/

@[simp] theorem emitRecord_cfg (p : Phase) (s : State) : (emitRecord p s).cfg = s.cfg := rfl
@[simp] theorem emitRecord_phase (p : Phase) (s : State) : (emitRecord p s).phase = s.phase := rfl
@[simp] theorem emitRecord_currentLine (p : Phase) (s : State) : (emitRecord p s).currentLine = s.currentLine := rfl
@[simp] theorem emitRecord_frameCount (p : Phase) (s : State) : (emitRecord p s).frameCount = s.frameCount := rfl
@[simp] theorem emitRecord_renderActive (p : Phase) (s : State) : (emitRecord p s).renderActive = s.renderActive := rfl
@[simp] theorem emitRecord_width (p : Phase) (s : State) : (emitRecord p s).width = s.width := rfl
@[simp] theorem emitRecord_height (p : Phase) (s : State) : (emitRecord p s).height = s.height := rfl
@[simp] theorem emitRecord_verticalScaleCounter (p : Phase) (s : State) : (emitRecord p s).verticalScaleCounter = s.verticalScaleCounter := rfl
@[simp] theorem emitRecord_verticalScaleConstant (p : Phase) (s : State) : (emitRecord p s).verticalScaleConstant = s.verticalScaleConstant := rfl
@[simp] theorem emitRecord_activeRenderStartLine (p : Phase) (s : State) : (emitRecord p s).activeRenderStartLine = s.activeRenderStartLine := rfl
@[simp] theorem emitRecord_activeRenderEndLine (p : Phase) (s : State) : (emitRecord p s).activeRenderEndLine = s.activeRenderEndLine := rfl
@[simp] theorem emitRecord_vsyncEndLine (p : Phase) (s : State) : (emitRecord p s).vsyncEndLine = s.vsyncEndLine := rfl
@[simp] theorem emitRecord_linesPerFrame (p : Phase) (s : State) : (emitRecord p s).linesPerFrame = s.linesPerFrame := rfl
@[simp] theorem emitRecord_outputStartDelayCycles (p : Phase) (s : State) : (emitRecord p s).outputStartDelayCycles = s.outputStartDelayCycles := rfl
@[simp] theorem emitRecord_frameBuffer (p : Phase) (s : State) : (emitRecord p s).frameBuffer = s.frameBuffer := rfl
@[simp] theorem emitRecord_currentRenderOffset (p : Phase) (s : State) : (emitRecord p s).currentRenderOffset = s.currentRenderOffset := rfl
@[simp] theorem emitRecord_strategySel (p : Phase) (s : State) : (emitRecord p s).strategySel = s.strategySel := rfl
@[simp] theorem emitRecord_syncMode (p : Phase) (s : State) : (emitRecord p s).syncMode = s.syncMode := rfl
@[simp] theorem emitRecord_toneCountdown (p : Phase) (s : State) : (emitRecord p s).toneCountdown = s.toneCountdown := rfl
@[simp] theorem emitRecord_toneEnable (p : Phase) (s : State) : (emitRecord p s).toneEnable = s.toneEnable := rfl
@[simp] theorem emitRecord_started (p : Phase) (s : State) : (emitRecord p s).started = s.started := rfl
@[simp] theorem emitRecord_standard (p : Phase) (s : State) : (emitRecord p s).standard = s.standard := rfl
@[simp] theorem emitRecord_outVideo (p : Phase) (s : State) : (emitRecord p s).outVideo = s.outVideo := rfl
@[simp] theorem emitRecord_outSync (p : Phase) (s : State) : (emitRecord p s).outSync = s.outSync := rfl
@[simp] theorem emitRecord_outTone (p : Phase) (s : State) : (emitRecord p s).outTone = s.outTone := rfl
@[simp] theorem emitRecord_lineCycle (p : Phase) (s : State) : (emitRecord p s).lineCycle = s.lineCycle := rfl
@[simp] theorem emitRecord_pinWrites (p : Phase) (s : State) : (emitRecord p s).pinWrites = s.pinWrites := rfl
@[simp] theorem emitRecord_retLine (p : Phase) (s : State) : (emitRecord p s).retLine = s.retLine := rfl
@[simp] theorem emitRecord_retPixels (p : Phase) (s : State) : (emitRecord p s).retPixels = s.retPixels := rfl
@[simp] theorem emitRecord_trace (p : Phase) (s : State) : (emitRecord p s).trace = s.trace ++ [⟨s.retLine, p, s.syncMode, s.retPixels, liveCost s⟩] := rfl
@[simp] theorem emitRecord_mem (p : Phase) (s : State) : (emitRecord p s).mem = s.mem := rfl
@[simp] theorem emitRecord_syncLate (p : Phase) (s : State) : (emitRecord p s).syncLate = s.syncLate := rfl
@[simp] theorem emitRecord_syncFree (p : Phase) (s : State) : (emitRecord p s).syncFree = s.syncFree := rfl
@[simp] theorem emitRecord_commands (p : Phase) (s : State) : (emitRecord p s).commands = s.commands := rfl
@[simp] theorem emitRecord_dispatch (p : Phase) (s : State) : (emitRecord p s).dispatch = s.dispatch := rfl
@[simp] theorem emitRecord_freeIndex (p : Phase) (s : State) : (emitRecord p s).freeIndex = s.freeIndex := rfl

/-! ### `handlerReturn` -/

@[simp] theorem handlerReturn_cfg (px : List Level) (s : State) : (handlerReturn px s).cfg = s.cfg := rfl
@[simp] theorem handlerReturn_phase (px : List Level) (s : State) : (handlerReturn px s).phase = s.phase := rfl
@[simp] theorem handlerReturn_currentLine (px : List Level) (s : State) : (handlerReturn px s).currentLine = s.currentLine := rfl
@[simp] theorem handlerReturn_frameCount (px : List Level) (s : State) : (handlerReturn px s).frameCount = s.frameCount := rfl
@[simp] theorem handlerReturn_renderActive (px : List Level) (s : State) : (handlerReturn px s).renderActive = s.renderActive := rfl
@[simp] theorem handlerReturn_width (px : List Level) (s : State) : (handlerReturn px s).width = s.width := rfl
@[simp] theorem handlerReturn_height (px : List Level) (s : State) : (handlerReturn px s).height = s.height := rfl
@[simp] theorem handlerReturn_verticalScaleCounter (px : List Level) (s : State) : (handlerReturn px s).verticalScaleCounter = s.verticalScaleCounter := rfl
@[simp] theorem handlerReturn_verticalScaleConstant (px : List Level) (s : State) : (handlerReturn px s).verticalScaleConstant = s.verticalScaleConstant := rfl
@[simp] theorem handlerReturn_activeRenderStartLine (px : List Level) (s : State) : (handlerReturn px s).activeRenderStartLine = s.activeRenderStartLine := rfl
@[simp] theorem handlerReturn_activeRenderEndLine (px : List Level) (s : State) : (handlerReturn px s).activeRenderEndLine = s.activeRenderEndLine := rfl
@[simp] theorem handlerReturn_vsyncEndLine (px : List Level) (s : State) : (handlerReturn px s).vsyncEndLine = s.vsyncEndLine := rfl
@[simp] theorem handlerReturn_linesPerFrame (px : List Level) (s : State) : (handlerReturn px s).linesPerFrame = s.linesPerFrame := rfl
@[simp] theorem handlerReturn_outputStartDelayCycles (px : List Level) (s : State) : (handlerReturn px s).outputStartDelayCycles = s.outputStartDelayCycles := rfl
@[simp] theorem handlerReturn_frameBuffer (px : List Level) (s : State) : (handlerReturn px s).frameBuffer = s.frameBuffer := rfl
@[simp] theorem handlerReturn_currentRenderOffset (px : List Level) (s : State) : (handlerReturn px s).currentRenderOffset = s.currentRenderOffset := rfl
@[simp] theorem handlerReturn_strategySel (px : List Level) (s : State) : (handlerReturn px s).strategySel = s.strategySel := rfl
@[simp] theorem handlerReturn_syncMode (px : List Level) (s : State) : (handlerReturn px s).syncMode = s.syncMode := rfl
@[simp] theorem handlerReturn_toneCountdown (px : List Level) (s : State) : (handlerReturn px s).toneCountdown = s.toneCountdown := rfl
@[simp] theorem handlerReturn_toneEnable (px : List Level) (s : State) : (handlerReturn px s).toneEnable = s.toneEnable := rfl
@[simp] theorem handlerReturn_started (px : List Level) (s : State) : (handlerReturn px s).started = s.started := rfl
@[simp] theorem handlerReturn_standard (px : List Level) (s : State) : (handlerReturn px s).standard = s.standard := rfl
@[simp] theorem handlerReturn_outVideo (px : List Level) (s : State) : (handlerReturn px s).outVideo = s.outVideo := rfl
@[simp] theorem handlerReturn_outSync (px : List Level) (s : State) : (handlerReturn px s).outSync = s.outSync := rfl
@[simp] theorem handlerReturn_outTone (px : List Level) (s : State) : (handlerReturn px s).outTone = s.outTone := rfl
@[simp] theorem handlerReturn_lineCycle (px : List Level) (s : State) : (handlerReturn px s).lineCycle = s.lineCycle := rfl
@[simp] theorem handlerReturn_pinWrites (px : List Level) (s : State) : (handlerReturn px s).pinWrites = s.pinWrites := rfl
@[simp] theorem handlerReturn_retLine (px : List Level) (s : State) : (handlerReturn px s).retLine = s.currentLine := rfl
@[simp] theorem handlerReturn_retPixels (px : List Level) (s : State) : (handlerReturn px s).retPixels = px := rfl
@[simp] theorem handlerReturn_trace (px : List Level) (s : State) : (handlerReturn px s).trace = s.trace := rfl
@[simp] theorem handlerReturn_mem (px : List Level) (s : State) : (handlerReturn px s).mem = s.mem := rfl
@[simp] theorem handlerReturn_syncLate (px : List Level) (s : State) : (handlerReturn px s).syncLate = s.syncLate := rfl
@[simp] theorem handlerReturn_syncFree (px : List Level) (s : State) : (handlerReturn px s).syncFree = s.syncFree := rfl
@[simp] theorem handlerReturn_commands (px : List Level) (s : State) : (handlerReturn px s).commands = s.commands := rfl
@[simp] theorem handlerReturn_dispatch (px : List Level) (s : State) : (handlerReturn px s).dispatch = s.dispatch := rfl
@[simp] theorem handlerReturn_freeIndex (px : List Level) (s : State) : (handlerReturn px s).freeIndex = s.freeIndex := rfl

/-! ### `advance` -/

@[simp] theorem advance_cfg (s : State) : (advance s).cfg = s.cfg := rfl
@[simp] theorem advance_phase (s : State) : (advance s).phase = s.phase := rfl
@[simp] theorem advance_currentLine (s : State) : (advance s).currentLine = s.currentLine := rfl
@[simp] theorem advance_frameCount (s : State) : (advance s).frameCount = s.frameCount := rfl
@[simp] theorem advance_renderActive (s : State) : (advance s).renderActive = s.renderActive := rfl
@[simp] theorem advance_width (s : State) : (advance s).width = s.width := rfl
@[simp] theorem advance_height (s : State) : (advance s).height = s.height := rfl
@[simp] theorem advance_verticalScaleCounter (s : State) : (advance s).verticalScaleCounter = s.verticalScaleCounter := rfl
@[simp] theorem advance_verticalScaleConstant (s : State) : (advance s).verticalScaleConstant = s.verticalScaleConstant := rfl
@[simp] theorem advance_activeRenderStartLine (s : State) : (advance s).activeRenderStartLine = s.activeRenderStartLine := rfl
@[simp] theorem advance_activeRenderEndLine (s : State) : (advance s).activeRenderEndLine = s.activeRenderEndLine := rfl
@[simp] theorem advance_vsyncEndLine (s : State) : (advance s).vsyncEndLine = s.vsyncEndLine := rfl
@[simp] theorem advance_linesPerFrame (s : State) : (advance s).linesPerFrame = s.linesPerFrame := rfl
@[simp] theorem advance_outputStartDelayCycles (s : State) : (advance s).outputStartDelayCycles = s.outputStartDelayCycles := rfl
@[simp] theorem advance_frameBuffer (s : State) : (advance s).frameBuffer = s.frameBuffer := rfl
@[simp] theorem advance_currentRenderOffset (s : State) : (advance s).currentRenderOffset = s.currentRenderOffset := rfl
@[simp] theorem advance_strategySel (s : State) : (advance s).strategySel = s.strategySel := rfl
@[simp] theorem advance_syncMode (s : State) : (advance s).syncMode = s.syncMode := rfl
@[simp] theorem advance_toneCountdown (s : State) : (advance s).toneCountdown = s.toneCountdown := rfl
@[simp] theorem advance_toneEnable (s : State) : (advance s).toneEnable = s.toneEnable := rfl
@[simp] theorem advance_started (s : State) : (advance s).started = s.started := rfl
@[simp] theorem advance_standard (s : State) : (advance s).standard = s.standard := rfl
@[simp] theorem advance_outVideo (s : State) : (advance s).outVideo = s.outVideo := rfl
@[simp] theorem advance_outSync (s : State) : (advance s).outSync = s.outSync := rfl
@[simp] theorem advance_outTone (s : State) : (advance s).outTone = s.outTone := rfl
@[simp] theorem advance_lineCycle (s : State) : (advance s).lineCycle = s.lineCycle := rfl
@[simp] theorem advance_pinWrites (s : State) : (advance s).pinWrites = s.pinWrites := rfl
@[simp] theorem advance_retLine (s : State) : (advance s).retLine = s.retLine := rfl
@[simp] theorem advance_retPixels (s : State) : (advance s).retPixels = s.retPixels := rfl
@[simp] theorem advance_trace (s : State) : (advance s).trace = s.trace := rfl
@[simp] theorem advance_mem (s : State) : (advance s).mem = s.mem := rfl
@[simp] theorem advance_syncLate (s : State) : (advance s).syncLate = s.syncLate := rfl
@[simp] theorem advance_syncFree (s : State) : (advance s).syncFree = s.syncFree := rfl
@[simp] theorem advance_commands (s : State) : (advance s).commands = s.commands := rfl
@[simp] theorem advance_dispatch (s : State) : (advance s).dispatch = s.dispatch := rfl
@[simp] theorem advance_freeIndex (s : State) : (advance s).freeIndex = s.freeIndex + 1 := rfl

end Sys2Proof.Machine
end

