-- ==== Sys2Proof/Laws/Memory.lean ====
section
/-!
SUPPORT. The laws of the frame-buffer space: read after write, and that a write keeps the one form of a memory.
-/

namespace Sys2Proof.Machine

@[simp] theorem Memory.get_nil (x : Nat) : Memory.get [] x = none := rfl

theorem Memory.get_cons (a : Nat) (b : Byte) (m : Memory) (x : Nat) :
    Memory.get ((a, b) :: m) x = if a = x then some b else Memory.get m x := rfl

/-- A read after a write to the same address gives the byte written. -/
@[simp] theorem Memory.get_put_same (m : Memory) (x : Nat) (v : Byte) : Memory.get (Memory.put m x v) x = some v := by
  induction m with
  | nil => simp [Memory.put, Memory.get_cons]
  | cons p m ih =>
    obtain ⟨a, b⟩ := p
    rcases Nat.lt_trichotomy x a with h | h | h
    · simp [Memory.put, h, Memory.get_cons]
    · simp [Memory.put, h, Memory.get_cons]
    · have h1 : ¬ x < a := by omega
      have h2 : ¬ x = a := by omega
      have h3 : ¬ a = x := by omega
      simp [Memory.put, h1, h2, h3, Memory.get_cons, ih]

/-- A write leaves every other address alone. -/
theorem Memory.get_put_other (m : Memory) (x y : Nat) (v : Byte) (hxy : x ≠ y) :
    Memory.get (Memory.put m x v) y = Memory.get m y := by
  induction m with
  | nil => simp [Memory.put, Memory.get_cons, hxy]
  | cons p m ih =>
    obtain ⟨a, b⟩ := p
    rcases Nat.lt_trichotomy x a with h | h | h
    · simp [Memory.put, h, Memory.get_cons, hxy]
    · subst h
      simp [Memory.put, Memory.get_cons, hxy]
    · have h1 : ¬ x < a := by omega
      have h2 : ¬ x = a := by omega
      simp [Memory.put, h1, h2, Memory.get_cons, ih]

@[simp] theorem memRead_put_same (m : Memory) (x : Nat) (v : Byte) : memRead (Memory.put m x v) x = v := by
  simp [memRead]

theorem memRead_put_other (m : Memory) (x y : Nat) (v : Byte) (hxy : x ≠ y) :
    memRead (Memory.put m x v) y = memRead m y := by
  simp [memRead, Memory.get_put_other m x y v hxy]

/-- The addresses of a written memory are the old ones and the one written. -/
theorem Memory.mem_put (m : Memory) (x : Nat) (v : Byte) (y : Nat) :
    y ∈ (Memory.put m x v).map Prod.fst ↔ y = x ∨ y ∈ m.map Prod.fst := by
  induction m with
  | nil => simp [Memory.put]
  | cons p m ih =>
    obtain ⟨a, b⟩ := p
    rcases Nat.lt_trichotomy x a with h | h | h
    · simp [Memory.put, h]
    · subst h
      simp [Memory.put]
    · have h1 : ¬ x < a := by omega
      have h2 : ¬ x = a := by omega
      simp only [Memory.put, h1, h2, if_false, List.map_cons, List.mem_cons, ih]
      tauto

/-- A write of an address below 2^16 keeps the form of a memory. -/
theorem Memory.wf_put (m : Memory) (x : Nat) (v : Byte) (hm : Memory.wf m) (hx : x < 2 ^ 16) :
    Memory.wf (Memory.put m x v) := by
  refine ⟨?_, ?_⟩
  · obtain ⟨hs, -⟩ := hm
    induction m with
    | nil => simp [Memory.put]
    | cons p m ih =>
      obtain ⟨a, b⟩ := p
      simp only [List.map_cons, List.pairwise_cons] at hs
      obtain ⟨ha, hs⟩ := hs
      rcases Nat.lt_trichotomy x a with h | h | h
      · simp only [Memory.put, h, if_true, List.map_cons, List.pairwise_cons, List.mem_cons]
        refine ⟨?_, ha, hs⟩
        rintro y (rfl | hy)
        · exact h
        · exact Nat.lt_trans h (ha y hy)
      · subst h
        simpa [Memory.put] using ⟨by simpa using ha, hs⟩
      · have h1 : ¬ x < a := by omega
        have h2 : ¬ x = a := by omega
        simp only [Memory.put, h1, h2, if_false, List.map_cons, List.pairwise_cons]
        refine ⟨fun y hy => ?_, ih hs⟩
        rcases (Memory.mem_put m x v y).mp hy with rfl | hy
        · exact h
        · exact ha y hy
  · intro y hy
    rcases (Memory.mem_put m x v y).mp hy with rfl | hy
    · exact hx
    · exact hm.2 y hy

/-- `MemWrite` keeps the form of a memory. -/
theorem memWrite_wf (a : Word) (v : Byte) (s : State) (h : Memory.wf s.mem) : Memory.wf (memWrite a v s).mem :=
  Memory.wf_put s.mem a.toNat v h a.isLt

/-- Reset's memory has the form. -/
theorem reset_mem_wf : Memory.wf State.reset.mem := by decide

end Sys2Proof.Machine
end

