-- ==== Sys2Proof/Laws/Ops.lean ====
section
/-!
SUPPORT. One lemma per shared operation and per meaning, saying once everything it can do; later proofs cite these
and do not unfold the operations.
-/

namespace Sys2Proof.Machine

/-! ### Outcomes -/

@[simp] theorem andThen_next (s : State) (f : State → Result) : andThen (.next s) f = f s := rfl
@[simp] theorem andThen_refused (r : Refusal) (f : State → Result) : andThen (.refused r) f = .refused r := rfl
@[simp] theorem andThen_fault (r : Fault) (f : State → Result) : andThen (.fault r) f = .fault r := rfl

/-- A sequence that ends in a next state went through one. -/
theorem andThen_eq_next {o : Result} {f : State → Result} {t : State} (h : andThen o f = .next t) :
    ∃ u, o = .next u ∧ f u = .next t := by
  cases o with
  | next u => exact ⟨u, rfl, h⟩
  | fault r => cases h
  | refused r => cases h

@[simp] theorem finish_next (s : State) : finish (.next s) = .next (advance s) := rfl
@[simp] theorem finish_refused (r : Refusal) : finish (.refused r) = .refused r := rfl

/-- A step's next state is its operation's with the free index advanced. -/
theorem finish_eq_next {o : Result} {t : State} (h : finish o = .next t) : ∃ u, o = .next u ∧ t = advance u := by
  obtain ⟨u, hu, hf⟩ := andThen_eq_next h
  injection hf with hf
  exact ⟨u, hu, hf.symm⟩

/-! ### Tone -/

theorem toneCountdownAfter_pos {n : Int} (h : 0 < n) : toneCountdownAfter n = n - 1 := by
  simp [toneCountdownAfter, h]

theorem toneCountdownAfter_nonpos {n : Int} (h : n ≤ 0) : toneCountdownAfter n = n := by
  simp [toneCountdownAfter, h]

/-- The boundary stops the tone exactly when it finds the countdown at 0 or 1 (R191). -/
theorem toneStops_iff (n : Int) : toneStops n = true ↔ n = 0 ∨ n = 1 := by
  unfold toneStops toneCountdownAfter
  split <;> simp <;> omega

/-- All the frame-boundary actions do (R190). -/
theorem frameBoundaryActions_eq (s : State) :
    frameBoundaryActions s =
      { s with
        toneCountdown := toneCountdownAfter s.toneCountdown
        toneEnable := if toneStops s.toneCountdown then false else s.toneEnable
        outTone := if toneStops s.toneCountdown then false else s.outTone
        pinWrites :=
          if toneStops s.toneCountdown then s.pinWrites ++ [⟨.tone, false, toneLoTime s⟩] else s.pinWrites } := by
  by_cases h : toneStops s.toneCountdown = true <;> simp [frameBoundaryActions, h, toneLoAt, pinWrite]

/-- `SET_TONE` on a started block (R195). -/
theorem execSetTone_started (n : Int) (s : State) (h : s.started = true) :
    execSetTone n s = .next { s with
      toneCountdown := n
      toneEnable := toneEnableOf n
      outTone := if toneEnableOf n then s.outTone else false } := by
  simp [execSetTone, h]

/-! ### Rendering -/

/-- All a run of pixels does (R165). -/
theorem emitPixels_eq (d g c : Nat) (x : Nat) (px : List Level) (s : State) :
    emitPixels d g c x px s =
      { s with
        outVideo := px.getLast?.getD s.outVideo
        pinWrites := s.pinWrites ++ px.mapIdx fun i b => ⟨.video, b, pixelCycle d g c (x + i)⟩ } := by
  induction px generalizing x s with
  | nil => simp [emitPixels]
  | cons b bs ih =>
    have hlast : (b :: bs).getLast?.getD s.outVideo = bs.getLast?.getD b := by
      simp [List.getLast?_cons]
    have hstep : pixelAt (pixelCycle d g c x) b s = pinWrite ⟨.video, b, pixelCycle d g c x⟩ s := by
      cases b <;> rfl
    rw [emitPixels, ih, hstep, hlast]
    simp [pinWrite, List.mapIdx_cons, Nat.add_assoc, Nat.add_comm 1]

@[simp] theorem rowPixels_length (s : State) : (rowPixels s).length = s.width.toNat := by simp [rowPixels]

@[simp] theorem fetchRow_length (s : State) : (fetchRow s).length = rowBytes s := by simp [fetchRow]

/-- All a render does (R165): the pixel list, its timed writes, the final `VID_LO`, `VIDEO` left at 0. -/
theorem renderRow_eq (c : Nat) (s : State) :
    renderRow c s =
      { s with
        outVideo := false
        lineCycle := pixelsEnd s.outputStartDelayCycles.toNat s.cfg.groupSize c s.width.toNat
        retPixels := rowPixels s
        pinWrites := s.pinWrites ++
          ((rowPixels s).mapIdx fun i b => ⟨.video, b, pixelCycle s.outputStartDelayCycles.toNat s.cfg.groupSize c i⟩) ++
          [⟨.video, false, pixelsEnd s.outputStartDelayCycles.toNat s.cfg.groupSize c s.width.toNat⟩] } := by
  simp [renderRow, emitPixels_eq, vidLoAt, pinWrite, waitUntil]

/-- The pixel list of a line, in the closed form of R163 and R164. -/
theorem rowPixels_eq_shown (s : State) :
    rowPixels s = shownPixels s.mem s.frameBuffer.toNat s.currentRenderOffset.toNat s.width.toNat := by
  unfold rowPixels shownPixels
  apply List.map_congr_left
  intro x hx
  simp only [List.mem_range] at hx
  have h1 : x / 8 < rowBytes s := by unfold rowBytes rowBytesOf; omega
  simp [pixelBit, fetchRow, List.getD, h1, fetchAddr]

/-- The timed writes of a render, in the closed form of R165. -/
theorem renderWrites_eq (s : State) (c : Nat) :
    renderWrites s.outputStartDelayCycles.toNat s.cfg.groupSize c (rowPixels s) =
      ((rowPixels s).mapIdx fun i b => ⟨.video, b, pixelCycle s.outputStartDelayCycles.toNat s.cfg.groupSize c i⟩) ++
          [⟨.video, false, pixelsEnd s.outputStartDelayCycles.toNat s.cfg.groupSize c s.width.toNat⟩] := by
  simp [renderWrites, pixelCycle, pixelsEnd, ceilDiv]

/-- A render of an entry of the table completes. -/
theorem renderEntry_valid (sel : Nat) (s : State) (h : sel < s.cfg.strats.length) :
    renderEntry sel s = .next (renderRow (costOf s.cfg sel) s) := by simp [renderEntry, h]

/-- A render past the table is refused. -/
theorem renderEntry_invalid (sel : Nat) (s : State) (h : ¬ sel < s.cfg.strats.length) :
    renderEntry sel s = .refused (.reservedDispatchCode (renderCode (BitVec.ofNat 4 sel))) := by simp [renderEntry, h]

/-! ### The `SYNC` output -/

/-- Once two writes have collided the level is free (R254). -/
theorem syncPin_free (s : State) (t : Nat) (h : s.syncFree = true) :
    syncPin s t = Config.collidedSync s.freeIndex t := by simp [syncPin, h]

/-- Before any collision the level is that of the line's writes (R170). -/
theorem syncPin_settled (s : State) (t : Nat) (h : s.syncFree = false) :
    syncPin s t = levelAt .sync false s.pinWrites t := by simp [syncPin, h]

/-! ### Lines -/

/-- All the scale update does (R145). -/
theorem scaleUpdate_eq (s : State) :
    scaleUpdate s =
      { s with
        verticalScaleCounter :=
          if s.verticalScaleCounter.toNat = 0 then s.verticalScaleConstant
          else BitVec.ofNat 16 (s.verticalScaleCounter.toNat - 1)
        currentRenderOffset :=
          if s.verticalScaleCounter.toNat = 0 then BitVec.ofNat 16 (s.currentRenderOffset.toNat + rowBytes s)
          else s.currentRenderOffset } := by
  by_cases h : s.verticalScaleCounter.toNat = 0 <;> simp [scaleUpdate, h]

/-- All the end test does (R145). -/
theorem endTest_eq (s : State) :
    endTest s =
      { s with
        phase := if s.currentLine.toNat + 1 = s.activeRenderEndLine.toNat then .blank else s.phase
        renderActive :=
          if s.currentLine.toNat + 1 = s.activeRenderEndLine.toNat then false else s.renderActive } := by
  by_cases h : s.currentLine.toNat + 1 = s.activeRenderEndLine.toNat <;> simp [endTest, h]

/-- `ACTIVE_LINE` with a valid strategy index (R145). -/
theorem execActiveLine_valid (s : State) (h : SelValid s) :
    execActiveLine s =
      .next (handlerReturn (rowPixels s)
        (endTest (scaleUpdate (renderRow (liveCost s) (waitUntil s.outputStartDelayCycles.toNat s))))) := by
  have hpx : rowPixels (waitUntil s.outputStartDelayCycles.toNat s) = rowPixels s := rfl
  have hsel : (waitUntil s.outputStartDelayCycles.toNat s).strategySel.toNat <
      (waitUntil s.outputStartDelayCycles.toNat s).cfg.strats.length := h
  simp only [execActiveLine, muxRender, renderEntry_valid _ _ hsel, andThen_next]
  have hret : (renderRow (costOf (waitUntil s.outputStartDelayCycles.toNat s).cfg
      (waitUntil s.outputStartDelayCycles.toNat s).strategySel.toNat)
      (waitUntil s.outputStartDelayCycles.toNat s)).retPixels = rowPixels s := by
    rw [renderRow_eq, hpx]
  rw [hret]
  rfl

/-- All `ACTIVE_LINE` does, with a valid strategy index (R145). -/
theorem execActiveLine_eq (s : State) (h : SelValid s) :
    execActiveLine s = .next { s with
      verticalScaleCounter :=
        if s.verticalScaleCounter.toNat = 0 then s.verticalScaleConstant
        else BitVec.ofNat 16 (s.verticalScaleCounter.toNat - 1)
      currentRenderOffset :=
        if s.verticalScaleCounter.toNat = 0 then BitVec.ofNat 16 (s.currentRenderOffset.toNat + rowBytes s)
        else s.currentRenderOffset
      phase := if s.currentLine.toNat + 1 = s.activeRenderEndLine.toNat then .blank else s.phase
      renderActive := if s.currentLine.toNat + 1 = s.activeRenderEndLine.toNat then false else s.renderActive
      outVideo := false
      lineCycle := pixelsEnd s.outputStartDelayCycles.toNat s.cfg.groupSize (liveCost s) s.width.toNat
      retLine := s.currentLine
      retPixels := rowPixels s
      pinWrites := s.pinWrites ++
        renderWrites s.outputStartDelayCycles.toNat s.cfg.groupSize (liveCost s) (rowPixels s) } := by
  rw [execActiveLine_valid s h, endTest_eq, scaleUpdate_eq, renderRow_eq, renderWrites_eq, ← List.append_assoc]
  rfl

/-- All the falling edge of the sync pulse does (R171, R173, R254). -/
theorem syncFall_eq (s : State) :
    syncFall s =
      { s with
        outSync := if s.syncFree then Config.lateSync s.freeIndex else !pulseFits s
        syncLate := !pulseFits s
        pinWrites := s.pinWrites ++ [⟨.sync, false, syncWidth s⟩] } := by
  simp [syncFall, syncLoAt, pinWrite]

/-- All the tick's return does (R133, R175). -/
theorem tickReturn_eq (p : Phase) (s : State) :
    tickReturn p s =
      { s with
        outSync := if s.syncFree then Config.lateSync s.freeIndex else !pulseFits s
        syncLate := !pulseFits s
        pinWrites := s.pinWrites ++ [⟨.sync, false, syncWidth s⟩]
        trace := s.trace ++ [⟨s.retLine, p, s.syncMode, s.retPixels, liveCost s⟩]
        currentLine := s.currentLine + 1
        lineCycle := lineLength s } := by
  simp only [tickReturn, syncFall_eq]
  rfl

@[simp] theorem tickReturn_cfg (p : Phase) (s : State) : (tickReturn p s).cfg = s.cfg := by rw [tickReturn_eq]
@[simp] theorem tickReturn_phase (p : Phase) (s : State) : (tickReturn p s).phase = s.phase := by rw [tickReturn_eq]
@[simp] theorem tickReturn_currentLine (p : Phase) (s : State) : (tickReturn p s).currentLine = s.currentLine + 1 := by rw [tickReturn_eq]
@[simp] theorem tickReturn_frameCount (p : Phase) (s : State) : (tickReturn p s).frameCount = s.frameCount := by rw [tickReturn_eq]
@[simp] theorem tickReturn_renderActive (p : Phase) (s : State) : (tickReturn p s).renderActive = s.renderActive := by rw [tickReturn_eq]
@[simp] theorem tickReturn_width (p : Phase) (s : State) : (tickReturn p s).width = s.width := by rw [tickReturn_eq]
@[simp] theorem tickReturn_height (p : Phase) (s : State) : (tickReturn p s).height = s.height := by rw [tickReturn_eq]
@[simp] theorem tickReturn_verticalScaleCounter (p : Phase) (s : State) : (tickReturn p s).verticalScaleCounter = s.verticalScaleCounter := by rw [tickReturn_eq]
@[simp] theorem tickReturn_verticalScaleConstant (p : Phase) (s : State) : (tickReturn p s).verticalScaleConstant = s.verticalScaleConstant := by rw [tickReturn_eq]
@[simp] theorem tickReturn_activeRenderStartLine (p : Phase) (s : State) : (tickReturn p s).activeRenderStartLine = s.activeRenderStartLine := by rw [tickReturn_eq]
@[simp] theorem tickReturn_activeRenderEndLine (p : Phase) (s : State) : (tickReturn p s).activeRenderEndLine = s.activeRenderEndLine := by rw [tickReturn_eq]
@[simp] theorem tickReturn_vsyncEndLine (p : Phase) (s : State) : (tickReturn p s).vsyncEndLine = s.vsyncEndLine := by rw [tickReturn_eq]
@[simp] theorem tickReturn_linesPerFrame (p : Phase) (s : State) : (tickReturn p s).linesPerFrame = s.linesPerFrame := by rw [tickReturn_eq]
@[simp] theorem tickReturn_outputStartDelayCycles (p : Phase) (s : State) : (tickReturn p s).outputStartDelayCycles = s.outputStartDelayCycles := by rw [tickReturn_eq]
@[simp] theorem tickReturn_frameBuffer (p : Phase) (s : State) : (tickReturn p s).frameBuffer = s.frameBuffer := by rw [tickReturn_eq]
@[simp] theorem tickReturn_currentRenderOffset (p : Phase) (s : State) : (tickReturn p s).currentRenderOffset = s.currentRenderOffset := by rw [tickReturn_eq]
@[simp] theorem tickReturn_strategySel (p : Phase) (s : State) : (tickReturn p s).strategySel = s.strategySel := by rw [tickReturn_eq]
@[simp] theorem tickReturn_syncMode (p : Phase) (s : State) : (tickReturn p s).syncMode = s.syncMode := by rw [tickReturn_eq]
@[simp] theorem tickReturn_toneCountdown (p : Phase) (s : State) : (tickReturn p s).toneCountdown = s.toneCountdown := by rw [tickReturn_eq]
@[simp] theorem tickReturn_toneEnable (p : Phase) (s : State) : (tickReturn p s).toneEnable = s.toneEnable := by rw [tickReturn_eq]
@[simp] theorem tickReturn_started (p : Phase) (s : State) : (tickReturn p s).started = s.started := by rw [tickReturn_eq]
@[simp] theorem tickReturn_standard (p : Phase) (s : State) : (tickReturn p s).standard = s.standard := by rw [tickReturn_eq]
@[simp] theorem tickReturn_outVideo (p : Phase) (s : State) : (tickReturn p s).outVideo = s.outVideo := by rw [tickReturn_eq]
@[simp] theorem tickReturn_outSync (p : Phase) (s : State) : (tickReturn p s).outSync = if s.syncFree then Config.lateSync s.freeIndex else !pulseFits s := by rw [tickReturn_eq]
@[simp] theorem tickReturn_outTone (p : Phase) (s : State) : (tickReturn p s).outTone = s.outTone := by rw [tickReturn_eq]
@[simp] theorem tickReturn_lineCycle (p : Phase) (s : State) : (tickReturn p s).lineCycle = lineLength s := by rw [tickReturn_eq]
@[simp] theorem tickReturn_pinWrites (p : Phase) (s : State) : (tickReturn p s).pinWrites = s.pinWrites ++ [⟨.sync, false, syncWidth s⟩] := by rw [tickReturn_eq]
@[simp] theorem tickReturn_retLine (p : Phase) (s : State) : (tickReturn p s).retLine = s.retLine := by rw [tickReturn_eq]
@[simp] theorem tickReturn_retPixels (p : Phase) (s : State) : (tickReturn p s).retPixels = s.retPixels := by rw [tickReturn_eq]
@[simp] theorem tickReturn_trace (p : Phase) (s : State) : (tickReturn p s).trace = s.trace ++ [⟨s.retLine, p, s.syncMode, s.retPixels, liveCost s⟩] := by rw [tickReturn_eq]
@[simp] theorem tickReturn_mem (p : Phase) (s : State) : (tickReturn p s).mem = s.mem := by rw [tickReturn_eq]
@[simp] theorem tickReturn_syncLate (p : Phase) (s : State) : (tickReturn p s).syncLate = !pulseFits s := by rw [tickReturn_eq]
@[simp] theorem tickReturn_syncFree (p : Phase) (s : State) : (tickReturn p s).syncFree = s.syncFree := by rw [tickReturn_eq]
@[simp] theorem tickReturn_commands (p : Phase) (s : State) : (tickReturn p s).commands = s.commands := by rw [tickReturn_eq]
@[simp] theorem tickReturn_dispatch (p : Phase) (s : State) : (tickReturn p s).dispatch = s.dispatch := by rw [tickReturn_eq]
@[simp] theorem tickReturn_freeIndex (p : Phase) (s : State) : (tickReturn p s).freeIndex = s.freeIndex := by rw [tickReturn_eq]

/-- A `TICK` before `BEGIN` changes nothing (R131). -/
theorem execTick_stopped (s : State) (h : s.started = false) : execTick s = .next s := by simp [execTick, h]

/-- A `TICK` of a started block runs the handler of its phase between entry and return (R130, R214, R215). -/
theorem execTick_started (s : State) (h : s.started = true) :
    execTick s = andThen (runHandler s.phase (tickEntry s)) fun u => .next (tickReturn s.phase u) := by
  simp [execTick, h]

/-- The frame-boundary branch of `VSYNC_LINE` (R135, R190). -/
theorem execVsyncLine_boundary (s : State) (h : s.linesPerFrame.toNat ≤ s.currentLine.toNat) :
    execVsyncLine s = .next { s with
      currentLine := 0
      frameCount := (s.frameCount + 1) % 2 ^ s.cfg.frameW
      syncMode := .v
      toneCountdown := toneCountdownAfter s.toneCountdown
      toneEnable := if toneStops s.toneCountdown then false else s.toneEnable
      outTone := if toneStops s.toneCountdown then false else s.outTone
      pinWrites :=
        if toneStops s.toneCountdown then
          s.pinWrites ++ [⟨.tone, false, Config.toneLoCycle s.freeIndex % lineLengthOf s.cfg (profileOf s) .v⟩]
        else s.pinWrites
      retLine := 0
      retPixels := [] } := by
  simp only [execVsyncLine, h, if_true, frameBoundary, frameBoundaryActions_eq]
  rfl

/-- The branch of `VSYNC_LINE` that leaves vertical sync (R135). -/
theorem execVsyncLine_leave (s : State) (h1 : s.currentLine.toNat < s.linesPerFrame.toNat)
    (h2 : s.currentLine.toNat = s.vsyncEndLine.toNat) :
    execVsyncLine s = .next { s with syncMode := .h, phase := .blank, retLine := s.currentLine, retPixels := [] } := by
  rw [execVsyncLine, if_neg (Nat.not_le.mpr h1), if_pos h2]
  rfl

/-- The branch of `VSYNC_LINE` that does nothing (R135). -/
theorem execVsyncLine_stay (s : State) (h1 : s.currentLine.toNat < s.linesPerFrame.toNat)
    (h2 : s.currentLine.toNat ≠ s.vsyncEndLine.toNat) :
    execVsyncLine s = .next { s with retLine := s.currentLine, retPixels := [] } := by
  rw [execVsyncLine, if_neg (Nat.not_le.mpr h1), if_neg h2]
  rfl

/-- The branch of `BLANK_LINE` that arms the renderer (R140). -/
theorem execBlankLine_arm (s : State) (h : s.currentLine.toNat = s.activeRenderStartLine.toNat) :
    execBlankLine s = .next { s with
      verticalScaleCounter := s.verticalScaleConstant
      currentRenderOffset := 0
      phase := .active
      renderActive := true
      retLine := s.currentLine
      retPixels := [] } := by
  simp only [execBlankLine, h, if_true]
  rfl

/-- The branch of `BLANK_LINE` that returns to vertical sync (R140). -/
theorem execBlankLine_wrap (s : State) (h1 : s.currentLine.toNat ≠ s.activeRenderStartLine.toNat)
    (h2 : s.currentLine.toNat + 1 = s.linesPerFrame.toNat) :
    execBlankLine s = .next { s with phase := .vsync, retLine := s.currentLine, retPixels := [] } := by
  simp only [execBlankLine, h1, if_false, h2, if_true]
  rfl

/-- The branch of `BLANK_LINE` that does nothing (R140). -/
theorem execBlankLine_stay (s : State) (h1 : s.currentLine.toNat ≠ s.activeRenderStartLine.toNat)
    (h2 : s.currentLine.toNat + 1 ≠ s.linesPerFrame.toNat) :
    execBlankLine s = .next { s with retLine := s.currentLine, retPixels := [] } := by
  simp only [execBlankLine, h1, if_false, h2]
  rfl

/-- A `TICK` whose handler completes completes. -/
theorem execTick_of_handler {s u : State} (h : s.started = true) (hu : runHandler s.phase (tickEntry s) = .next u) :
    execTick s = .next (tickReturn s.phase u) := by
  rw [execTick_started s h, hu]
  rfl

/-- Every tick of a started block that completes came from its handler. -/
theorem execTick_cases {s t : State} (h : s.started = true) (ht : execTick s = .next t) :
    ∃ u, runHandler s.phase (tickEntry s) = .next u ∧ t = tickReturn s.phase u := by
  rw [execTick_started s h] at ht
  obtain ⟨u, hu, hf⟩ := andThen_eq_next ht
  injection hf with hf
  exact ⟨u, hu, hf.symm⟩

/-- Every tick of a started block in phase `VSYNC` or `BLANK` completes; in `ACTIVE` it does with a valid index. -/
theorem execTick_completes (s : State) (h : s.started = true) (hsel : s.phase = .active → SelValid s) :
    ∃ u, runHandler s.phase (tickEntry s) = .next u ∧ execTick s = .next (tickReturn s.phase u) := by
  have hu : ∃ u, runHandler s.phase (tickEntry s) = .next u := by
    cases hp : s.phase with
    | vsync =>
      simp only [runHandler, execVsyncLine]
      split
      · exact ⟨_, rfl⟩
      · split <;> exact ⟨_, rfl⟩
    | blank =>
      simp only [runHandler, execBlankLine]
      split
      · exact ⟨_, rfl⟩
      · split <;> exact ⟨_, rfl⟩
    | active => exact ⟨_, execActiveLine_valid (tickEntry s) (hsel hp)⟩
  obtain ⟨u, hu⟩ := hu
  exact ⟨u, hu, execTick_of_handler h hu⟩

/-! ### The step -/

/-- An idle step only advances the free index. -/
theorem step_idle (s : State) (hd : s.dispatch = []) (hc : s.commands = []) : step s = .next (advance s) := by
  simp [step, fetch, hd, hc]

/-- A step that takes a command word runs the operation it decodes to. -/
theorem step_command {s : State} {w : CmdWord} {ws : List CmdWord} {i : Instr} (hd : s.dispatch = [])
    (hc : s.commands = w :: ws) (hi : decodeCommand w = some i) (hw : i.wf s.cfg = true) :
    step s = finish (exec i { s with commands := ws }) := by
  simp only [step, fetch, hd, hc, accept, hi, Option.filter, hw, if_true]

/-- A step that takes a dispatch code runs the operation it decodes to. -/
theorem step_code {s : State} {c : Code} {cs : List Code} {i : Instr} (hd : s.dispatch = c :: cs)
    (hi : decodeCode c = some i) (hw : i.wf s.cfg = true) :
    step s = finish (exec i { s with dispatch := cs }) := by
  simp only [step, fetch, hd, accept, hi, Option.filter, hw, if_true]

/-- All a step can do: nothing but advance, or an accepted operation of the command port or of the code queue. -/
theorem step_eq_next {s t : State} (h : step s = .next t) :
    (s.dispatch = [] ∧ s.commands = [] ∧ t = advance s) ∨
    (∃ w ws i u, s.dispatch = [] ∧ s.commands = w :: ws ∧ decodeCommand w = some i ∧ i.wf s.cfg = true ∧
      exec i { s with commands := ws } = .next u ∧ t = advance u) ∨
    (∃ c cs i u, s.dispatch = c :: cs ∧ decodeCode c = some i ∧ i.wf s.cfg = true ∧
      exec i { s with dispatch := cs } = .next u ∧ t = advance u) := by
  obtain ⟨d, hd⟩ : ∃ d, s.dispatch = d := ⟨_, rfl⟩
  obtain ⟨q, hc⟩ : ∃ q, s.commands = q := ⟨_, rfl⟩
  cases d with
  | nil =>
    cases q with
    | nil =>
      rw [step_idle s hd hc] at h
      injection h with h
      exact .inl ⟨hd, hc, h.symm⟩
    | cons w ws =>
      cases hi : decodeCommand w with
      | none => simp [step, fetch, hd, hc, accept, hi] at h
      | some i =>
        by_cases hw : i.wf s.cfg = true
        · rw [step_command hd hc hi hw] at h
          obtain ⟨u, hu, ht⟩ := finish_eq_next h
          exact .inr (.inl ⟨w, ws, i, u, hd, hc, hi, hw, hu, ht⟩)
        · simp [step, fetch, hd, hc, accept, hi, Option.filter, hw] at h
  | cons c cs =>
    cases hi : decodeCode c with
    | none => simp [step, fetch, hd, accept, hi] at h
    | some i =>
      by_cases hw : i.wf s.cfg = true
      · rw [step_code hd hi hw] at h
        obtain ⟨u, hu, ht⟩ := finish_eq_next h
        exact .inr (.inr ⟨c, cs, i, u, hd, hi, hw, hu, ht⟩)
      · simp [step, fetch, hd, accept, hi, Option.filter, hw] at h

end Sys2Proof.Machine
end

