-- ==== Sys2Proof/Laws/PerInstr.lean ====
section
/-!
SUPPORT. Laws stated once per instruction. `RowMatch`: an instruction's encoding matches the mask and pattern of its
own row of spec/opcode_table.json (R84, R85).
-/

namespace Sys2Proof.Laws

/-- The encoding of `i` matches `i`'s row. -/
def RowMatch.Statement (i : Instr) : Prop := matchesRow (tableRow i) (encode i)

/-- A command word matches a row when the word's bitwise conjunction with the mask is the pattern. -/
theorem matchesRow_of_and {w m p : CmdWord} (h : w &&& m = p) : w.toNat &&& m.toNat = p.toNat := by
  rw [← h, BitVec.toNat_and]

theorem RowMatch.beginCmd (std : Standard) (w h fb : Word) : RowMatch.Statement (.beginCmd std w h fb) := by
  refine ⟨rfl, ?_⟩
  refine matchesRow_of_and (m := 0xFFFE000000000000#64) (p := 0x0100000000000000#64) ?_
  apply BitVec.eq_of_getLsbD_eq
  intro i hi
  simp only [BitVec.getLsbD_and, BitVec.getLsbD_append]
  interval_cases i <;> simp

theorem RowMatch.tick : RowMatch.Statement .tick := by unfold RowMatch.Statement matchesRow; decide

theorem RowMatch.setTone (n : Int) : RowMatch.Statement (.setTone n) := by
  refine ⟨rfl, ?_⟩
  refine matchesRow_of_and (m := 0xFFFFFFFF00000000#64) (p := 0x0300000000000000#64) ?_
  apply BitVec.eq_of_getLsbD_eq
  intro i hi
  simp only [BitVec.getLsbD_and, BitVec.getLsbD_append]
  interval_cases i <;> simp

theorem RowMatch.fbw (a : Word) (d : Byte) : RowMatch.Statement (.fbw a d) := by
  refine ⟨rfl, ?_⟩
  refine matchesRow_of_and (m := 0xFFFFFFFFFF000000#64) (p := 0x0400000000000000#64) ?_
  apply BitVec.eq_of_getLsbD_eq
  intro i hi
  simp only [BitVec.getLsbD_and, BitVec.getLsbD_append]
  interval_cases i <;> simp

theorem RowMatch.vsyncLine : RowMatch.Statement .vsyncLine := by unfold RowMatch.Statement matchesRow; decide
theorem RowMatch.blankLine : RowMatch.Statement .blankLine := by unfold RowMatch.Statement matchesRow; decide
theorem RowMatch.activeLine : RowMatch.Statement .activeLine := by unfold RowMatch.Statement matchesRow; decide
theorem RowMatch.render3c : RowMatch.Statement .render3c := by unfold RowMatch.Statement matchesRow; decide
theorem RowMatch.render4c : RowMatch.Statement .render4c := by unfold RowMatch.Statement matchesRow; decide
theorem RowMatch.render5c : RowMatch.Statement .render5c := by unfold RowMatch.Statement matchesRow; decide
theorem RowMatch.render6c : RowMatch.Statement .render6c := by unfold RowMatch.Statement matchesRow; decide
theorem RowMatch.renderAt (sel : BitVec 4) : RowMatch.Statement (.renderAt sel) := by
  revert sel; unfold RowMatch.Statement matchesRow; decide
theorem RowMatch.vidLo : RowMatch.Statement .vidLo := by unfold RowMatch.Statement matchesRow; decide
theorem RowMatch.vidHi : RowMatch.Statement .vidHi := by unfold RowMatch.Statement matchesRow; decide
theorem RowMatch.syncLo : RowMatch.Statement .syncLo := by unfold RowMatch.Statement matchesRow; decide
theorem RowMatch.syncHi : RowMatch.Statement .syncHi := by unfold RowMatch.Statement matchesRow; decide
theorem RowMatch.toneLo : RowMatch.Statement .toneLo := by unfold RowMatch.Statement matchesRow; decide

end Sys2Proof.Laws
end

