-- ==== Sys2Proof/Laws/Tick.lean ====
section
/-!
SUPPORT. What a whole `TICK` does, one lemma for each row of the transition table (spec 41_line_tick.md R150): later
proofs about lines and frames cite these and unfold neither the handlers nor the tick.
-/

namespace Sys2Proof.Machine

/-- The frame boundary (R135, R150). -/
theorem execTick_boundary (s : State) (h : s.started = true) (hp : s.phase = .vsync)
    (hb : s.linesPerFrame.toNat ≤ s.currentLine.toNat) :
    execTick s = .next (tickReturn .vsync { tickEntry s with
      currentLine := 0
      frameCount := (s.frameCount + 1) % 2 ^ s.cfg.frameW
      syncMode := .v
      toneCountdown := toneCountdownAfter s.toneCountdown
      toneEnable := if toneStops s.toneCountdown then false else s.toneEnable
      outTone := if toneStops s.toneCountdown then false else s.outTone
      pinWrites :=
        if toneStops s.toneCountdown then
          [⟨.sync, true, 0⟩, ⟨.tone, false, Config.toneLoCycle s.freeIndex % lineLengthOf s.cfg (profileOf s) .v⟩]
        else [⟨.sync, true, 0⟩]
      retLine := 0
      retPixels := [] }) := by
  have := execTick_of_handler h (by rw [hp]; exact execVsyncLine_boundary (tickEntry s) hb)
  rw [hp] at this
  exact this

/-- Leaving vertical sync (R135, R150). -/
theorem execTick_leave (s : State) (h : s.started = true) (hp : s.phase = .vsync)
    (hb : s.currentLine.toNat < s.linesPerFrame.toNat) (hv : s.currentLine.toNat = s.vsyncEndLine.toNat) :
    execTick s = .next (tickReturn .vsync { tickEntry s with
      syncMode := .h, phase := .blank, retLine := s.currentLine, retPixels := [] }) := by
  have := execTick_of_handler h (by rw [hp]; exact execVsyncLine_leave (tickEntry s) hb hv)
  rw [hp] at this
  exact this

/-- A line of vertical sync on which nothing happens (R135, R150). -/
theorem execTick_vsyncStay (s : State) (h : s.started = true) (hp : s.phase = .vsync)
    (hb : s.currentLine.toNat < s.linesPerFrame.toNat) (hv : s.currentLine.toNat ≠ s.vsyncEndLine.toNat) :
    execTick s = .next (tickReturn .vsync { tickEntry s with retLine := s.currentLine, retPixels := [] }) := by
  have := execTick_of_handler h (by rw [hp]; exact execVsyncLine_stay (tickEntry s) hb hv)
  rw [hp] at this
  exact this

/-- Arming the renderer (R140, R150). -/
theorem execTick_arm (s : State) (h : s.started = true) (hp : s.phase = .blank)
    (hs : s.currentLine.toNat = s.activeRenderStartLine.toNat) :
    execTick s = .next (tickReturn .blank { tickEntry s with
      verticalScaleCounter := s.verticalScaleConstant
      currentRenderOffset := 0
      phase := .active
      renderActive := true
      retLine := s.currentLine
      retPixels := [] }) := by
  have := execTick_of_handler h (by rw [hp]; exact execBlankLine_arm (tickEntry s) hs)
  rw [hp] at this
  exact this

/-- Back to vertical sync (R140, R150). -/
theorem execTick_wrap (s : State) (h : s.started = true) (hp : s.phase = .blank)
    (hs : s.currentLine.toNat ≠ s.activeRenderStartLine.toNat)
    (hl : s.currentLine.toNat + 1 = s.linesPerFrame.toNat) :
    execTick s = .next (tickReturn .blank { tickEntry s with
      phase := .vsync, retLine := s.currentLine, retPixels := [] }) := by
  have := execTick_of_handler h (by rw [hp]; exact execBlankLine_wrap (tickEntry s) hs hl)
  rw [hp] at this
  exact this

/-- A blank line on which nothing happens (R140, R150). -/
theorem execTick_blankStay (s : State) (h : s.started = true) (hp : s.phase = .blank)
    (hs : s.currentLine.toNat ≠ s.activeRenderStartLine.toNat)
    (hl : s.currentLine.toNat + 1 ≠ s.linesPerFrame.toNat) :
    execTick s = .next (tickReturn .blank { tickEntry s with retLine := s.currentLine, retPixels := [] }) := by
  have := execTick_of_handler h (by rw [hp]; exact execBlankLine_stay (tickEntry s) hs hl)
  rw [hp] at this
  exact this

/-- An active line (R145, R150). -/
theorem execTick_active (s : State) (h : s.started = true) (hp : s.phase = .active) (hs : SelValid s) :
    execTick s = .next (tickReturn .active { tickEntry s with
      verticalScaleCounter :=
        if s.verticalScaleCounter.toNat = 0 then s.verticalScaleConstant
        else BitVec.ofNat 16 (s.verticalScaleCounter.toNat - 1)
      currentRenderOffset :=
        if s.verticalScaleCounter.toNat = 0 then BitVec.ofNat 16 (s.currentRenderOffset.toNat + rowBytes s)
        else s.currentRenderOffset
      phase := if s.currentLine.toNat + 1 = s.activeRenderEndLine.toNat then .blank else .active
      renderActive := if s.currentLine.toNat + 1 = s.activeRenderEndLine.toNat then false else s.renderActive
      outVideo := false
      lineCycle := pixelsEnd s.outputStartDelayCycles.toNat s.cfg.groupSize (liveCost s) s.width.toNat
      retLine := s.currentLine
      retPixels := rowPixels s
      pinWrites := ⟨.sync, true, 0⟩ ::
        renderWrites s.outputStartDelayCycles.toNat s.cfg.groupSize (liveCost s) (rowPixels s) }) := by
  have := execTick_of_handler h (by rw [hp]; exact execActiveLine_eq (tickEntry s) hs)
  rw [hp, tickEntry_phase, hp] at this
  exact this

/-! ### Runs of ticks -/

@[simp] theorem runTicks_zero (s : State) : runTicks 0 s = .next s := rfl

/-- The first of a run of ticks. -/
theorem runTicks_succ {s t : State} (n : Nat) (h : execTick s = .next t) : runTicks (n + 1) s = runTicks n t := by
  simp [runTicks, h]

@[simp] theorem boundariesIn_zero (s : State) : boundariesIn 0 s = 0 := rfl

/-- The first of a run of ticks counts when it is a frame boundary (R190). -/
theorem boundariesIn_succ {s t : State} (n : Nat) (h : execTick s = .next t) :
    boundariesIn (n + 1) s = (if AtBoundary s then 1 else 0) + boundariesIn n t := by
  simp [boundariesIn, h]

end Sys2Proof.Machine
end

