-- ==== Sys2Proof/Tests/Slice0.lean ====
section
/-!
SUPPORT. Tests of one operation each, their expected results taken from spec 95_test_vectors.md, and one witness per
obligation with hypotheses: concrete states and operands that meet all of them.
-/

namespace Sys2Proof.Tests

open Sys2Proof Sys2Proof.Machine

/-! ### Helpers -/

/-- One observation of the next state of an operation. -/
def after {α : Type} (o : Result) (f : State → α) : Option α :=
  match o with
  | .next s => some (f s)
  | .fault _ => none
  | .refused _ => none

/-- Why an operation is refused. -/
def refusal (o : Result) : Option Refusal :=
  match o with
  | .next _ => none
  | .fault _ => none
  | .refused r => some r

/-- `BEGIN NTSC, 16, 4, 0x0100` from power-on (program P1), with the first two bytes of its picture stored. -/
def begun : State :=
  { beginState .ntsc 16 4 0x0100 State.reset with mem := [(0x100, 0xA5#8), (0x101, 0x0F#8)] }

/-- A state of P1 in phase `VSYNC`. -/
def inVsync (line frames : Nat) : State :=
  { begun with currentLine := BitVec.ofNat 16 line, frameCount := frames }

/-- A state of P1 in phase `BLANK`. -/
def inBlank (line : Nat) : State :=
  { begun with
    phase := .blank, currentLine := BitVec.ofNat 16 line, verticalScaleCounter := 0, currentRenderOffset := 6 }

/-- A state of P1 in phase `ACTIVE`. -/
def inActive (line counter offset : Nat) : State :=
  { begun with
    phase := .active, renderActive := true, currentLine := BitVec.ofNat 16 line
    verticalScaleCounter := BitVec.ofNat 16 counter, currentRenderOffset := BitVec.ofNat 16 offset }

/-- What 95_test_vectors.md section 0 writes of a state. -/
structure Summary where
  phase   : Phase
  line    : Nat
  frames  : Nat
  counter : Nat
  offset  : Nat
  active  : Bool
  mode    : SyncMode
  deriving DecidableEq, Repr

/-- The summary of a state. -/
def summary (s : State) : Summary :=
  ⟨s.phase, s.currentLine.toNat, s.frameCount, s.verticalScaleCounter.toNat, s.currentRenderOffset.toNat,
    s.renderActive, s.syncMode⟩

/-- The last line record. -/
def lastRecord (s : State) : Option LineRecord := s.trace.getLast?

/-- The pixel bits of `A5 0F` (section 2.5). -/
def a50f : List Bool :=
  [true, false, true, false, false, true, false, true, false, false, false, false, true, true, true, true]

/-- The configuration with another strategy table, group size and tone width. -/
def withConfig (strats : List Nat) (g toneW : Nat) : Config :=
  { Config.initial with strats := strats, groupSize := g, toneW := toneW }

/-! ### WellFormed smoke: an ill-formed term for each check -/

theorem test_wf_refuses_tone_past_its_field :
    Instr.wf (withConfig [3] 1 64) (.setTone (2 ^ 31)) = false ∧
      Instr.wf Config.initial (.setTone (-(2 ^ 31))) = true := by decide

theorem test_wf_refuses_tone_past_TONE_W :
    Instr.wf (withConfig [3] 1 8) (.setTone 128) = false ∧
      Instr.wf (withConfig [3] 1 8) (.setTone (-129)) = false ∧
      Instr.wf (withConfig [3] 1 8) (.setTone 127) = true := by decide

theorem test_wf_refuses_renders_past_the_table :
    Instr.wf (withConfig [] 1 32) .render3c = false ∧ Instr.wf (withConfig [3] 1 32) .render4c = false ∧
      Instr.wf (withConfig [3, 4] 1 32) .render5c = false ∧
      Instr.wf (withConfig [3, 4, 5] 1 32) .render6c = false ∧ Instr.wf Config.initial .render6c = true := by
  decide

/-- R86: with the default table `0x24` to `0x2F` are reserved; with five entries `0x24` is not; entry 3 has a name. -/
theorem test_wf_refuses_renderAt_past_the_table :
    Instr.wf Config.initial (.renderAt 4) = false ∧ Instr.wf (withConfig [3, 4, 5, 6, 8] 1 32) (.renderAt 4) = true ∧
      Instr.wf (withConfig [3, 4, 5, 6, 8] 1 32) (.renderAt 5) = false ∧
      Instr.wf (withConfig [3, 4, 5, 6, 8] 1 32) (.renderAt 3) = false := by decide

/-- The default, and `FRAME_W = 0`: every frame count is 0 mod 2^0. -/
theorem test_config_wf : Config.initial.Wf ∧ Config.Wf { Config.initial with frameW := 0 } := by decide

theorem test_config_wf_refuses_each_check :
    ∀ c ∈ [withConfig [] 1 32, withConfig (List.range' 1 17) 1 32, withConfig [3, 3] 1 32, withConfig [0, 1] 1 32,
      withConfig [3] 0 32, withConfig [3] 1 0], ¬ c.Wf := by decide

/-! ### Decoding and encoding (section 2.1, R81, R82) -/

theorem test_decode_begin :
    decodeCommand 0x0100001000040100#64 = some (.beginCmd .ntsc 16#16 4#16 0x0100#16) ∧
      decodeCommand 0x0101008000600200#64 = some (.beginCmd .pal 128#16 96#16 0x0200#16) ∧
      decodeCommand 0x0101FFFFFFFFFFFF#64 = some (.beginCmd .pal 65535#16 65535#16 0xFFFF#16) := by decide

theorem test_decode_tick : decodeCommand 0x0200000000000000#64 = some .tick := by decide

theorem test_decode_set_tone :
    decodeCommand 0x0300000000000002#64 = some (.setTone 2) ∧
      decodeCommand 0x0300000080000000#64 = some (.setTone (-2147483648)) := by decide

theorem test_decode_fbw :
    decodeCommand 0x04000000000100A5#64 = some (.fbw 0x0100#16 0xA5#8) ∧
      decodeCommand 0x0400000000FFFF01#64 = some (.fbw 0xFFFF#16 0x01#8) := by decide

theorem test_decode_handlers :
    decodeCode 0b00010000#8 = some .vsyncLine ∧ decodeCode 0b00010001#8 = some .blankLine ∧
      decodeCode 0b00010010#8 = some .activeLine := by decide

theorem test_decode_renders :
    decodeCode 0b00100000#8 = some .render3c ∧ decodeCode 0b00100001#8 = some .render4c ∧
      decodeCode 0b00100010#8 = some .render5c ∧ decodeCode 0b00100011#8 = some .render6c ∧
      decodeCode 0b00100100#8 = some (.renderAt 4) ∧ decodeCode 0b00101111#8 = some (.renderAt 15) := by decide

theorem test_decode_pins :
    decodeCode 0b00110000#8 = some .vidLo ∧ decodeCode 0b00110001#8 = some .vidHi ∧
      decodeCode 0b00110010#8 = some .syncLo ∧ decodeCode 0b00110011#8 = some .syncHi ∧
      decodeCode 0b00110100#8 = some .toneLo := by decide

theorem test_decode_reserved_words :
    [0x0000000000000000#64, 0x0500000000000000#64, 0xFF00000000000000#64, 0x0200000000000001#64,
      0x0102001000040100#64, 0x0300000100000000#64, 0x0400000001000000#64].map decodeCommand =
      List.replicate 7 none := by decide

theorem test_decode_reserved_codes :
    ∀ c ∈ [0x00#8, 0x13#8, 0x1F#8, 0x35#8, 0x36#8, 0x37#8, 0xFF#8], decodeCode c = none := by decide

theorem test_encode :
    encode (.beginCmd .ntsc 24 2 0x0300) = .command 0x0100001800020300#64 ∧
      encode (.setTone (-1)) = .command 0x03000000FFFFFFFF#64 ∧
      encode (.fbw 0x0102 0xFF) = .command 0x04000000000102FF#64 ∧ encode .tick = .command 0x0200000000000000#64 ∧
      encode .render5c = .code 0x22#8 ∧ encode (.renderAt 15) = .code 0x2F#8 ∧ encode .toneLo = .code 0x34#8 := by decide

theorem test_decode_table_word :
    decodeTableWord 64 0x0200000000000000 = some .tick ∧ decodeTableWord 8 0x33 = some .syncHi ∧
      decodeTableWord 16 0x33 = none ∧ decodeTableWord 8 0x133 = none := by decide

/-- R89: `FRAME` of `TINY` is twelve ticks, `FILL` wraps at the top of the space, `FRAME` needs a `BEGIN` (log 26). -/
theorem test_script :
    scriptWords Config.initial [.fill 0xFFFF [1, 2], .toneLine 2, .ticks 2] =
        some [0x0400000000FFFF01#64, 0x0400000000000002#64, 0x0300000000000002#64, 0x0200000000000000#64,
          0x0200000000000000#64] ∧
      (scriptWords Config.initial [.beginLine .ntsc 16 4 0x0100, .frame]).map List.length = some 13 ∧
      scriptWords Config.initial [.frame] = none := by decide

/-- R83, R86: an operand past `TONE_W` but inside its field is a word, which the step refuses; past the field, log 29. -/
theorem test_script_tone :
    scriptWords (withConfig [3] 1 8) [.toneLine 128] = some [0x0300000000000080#64] ∧
      scriptWords (withConfig [3] 1 8) [.tickLine, .toneLine (2 ^ 31)] = none := by decide

/-! ### `BEGIN` and the selector (sections 2.2 and 2.3) -/

theorem test_begin_context :
    after (exec (.beginCmd .ntsc 16 4 0x0100) State.reset) summary = some ⟨.vsync, 12, 0, 1, 0, false, .h⟩ ∧
      after (exec (.beginCmd .ntsc 16 4 0x0100) State.reset) (fun s =>
        [s.strategySel.toNat, s.verticalScaleConstant.toNat, s.activeRenderStartLine.toNat,
          s.activeRenderEndLine.toNat, s.vsyncEndLine.toNat, s.linesPerFrame.toNat,
          s.outputStartDelayCycles.toNat]) = some [1, 1, 3, 11, 2, 12, 20] := by decide

theorem test_begin_refused :
    refusal (exec (.beginCmd .ntsc 16 9 0) State.reset) = some .beginPrecondition ∧
      refusal (exec (.beginCmd .ntsc 16 0 0) State.reset) = some .beginPrecondition ∧
      refusal (exec (.beginCmd .ntsc 0 4 0) State.reset) = some .beginPrecondition ∧
      refusal (exec (.beginCmd .pal 65535 65535 0xFFFF) State.reset) = some .beginPrecondition ∧
      refusal (exec (.beginCmd .ntsc 16 4 0) begun) = some .beginWhileStarted ∧
      refusal (exec (.beginCmd .ntsc 16 4 0) (State.powerOn (withConfig [] 1 32))) = some .configOutsideSpec := by
  decide

/-- Section 2.2: `k`, `S` and `E` of `TINY` by height. -/
theorem test_geometry :
    ∀ r ∈ [(1, 7, 3, 11), (2, 3, 3, 11), (3, 1, 4, 10), (4, 1, 3, 11), (5, 0, 5, 10), (8, 0, 3, 11)],
      (scaleConstant Config.tiny r.1, startLine Config.tiny r.1, endLine Config.tiny r.1) = r.2 := by decide

/-- Section 2.3: the default table, the table with a gap, and groups of eight. -/
theorem test_select :
    (∀ r ∈ [(1, 3), (8, 3), (10, 3), (11, 2), (12, 2), (13, 1), (16, 1), (17, 0), (21, 0), (22, 0), (65, 0)],
      select Config.initial 64 r.1 = r.2) ∧
    (∀ r ∈ [(8, 1), (12, 0), (21, 0), (22, 0)], select (withConfig [3, 6] 1 32) 64 r.1 = r.2) ∧
    (∀ r ∈ [(64, 3), (96, 2), (128, 1), (136, 0), (168, 0), (176, 0)],
      select (withConfig [3, 4, 5, 6] 8 32) 64 r.1 = r.2) ∧
    (List.range 4).map (maxWidth Config.initial 64) = [21, 16, 12, 10] := by decide

/-! ### The phase handlers and `TICK` (section 2.4) -/

theorem test_vsync_line_boundary :
    after (exec .vsyncLine { inVsync 12 5 with verticalScaleCounter := 0, currentRenderOffset := 6 }) summary =
        some ⟨.vsync, 0, 6, 0, 6, false, .v⟩ ∧
      after (exec .vsyncLine (inVsync 12 (2 ^ 32 - 1))) State.frameCount = some 0 := by decide

theorem test_vsync_line_leaves :
    after (exec .vsyncLine { inVsync 2 6 with syncMode := .v }) summary = some ⟨.blank, 2, 6, 1, 0, false, .h⟩ := by
  decide

theorem test_blank_line_arms :
    after (exec .blankLine (inBlank 3)) summary = some ⟨.active, 3, 0, 1, 0, true, .h⟩ := by decide

theorem test_blank_line_wraps :
    after (exec .blankLine (inBlank 11)) summary = some ⟨.vsync, 11, 0, 0, 6, false, .h⟩ := by decide

theorem test_active_line_repeats_a_row :
    after (exec .activeLine (inActive 4 1 0)) (fun s => (summary s, s.retPixels, s.retLine.toNat)) =
      some (⟨.active, 4, 0, 0, 0, true, .h⟩, a50f, 4) := by decide

/-- The offset wraps (`mod 2^16`, R145), and the last active line returns to `BLANK`. -/
theorem test_active_line_ends :
    after (exec .activeLine { inActive 10 0 0xFFFF with width := 9, frameBuffer := 0x0101 }) summary =
      some ⟨.blank, 10, 0, 1, 1, false, .h⟩ := by decide

theorem test_tick_boundary :
    after (exec .tick (inVsync 13 5)) (fun s => (summary s, lastRecord s)) =
      some (⟨.vsync, 1, 6, 1, 0, false, .v⟩, some ⟨0, .vsync, .v, [], 4⟩) := by decide

theorem test_tick_active :
    after (exec .tick (inActive 5 0 0)) (fun s => (summary s, lastRecord s)) =
      some (⟨.active, 6, 0, 1, 2, true, .h⟩, some ⟨5, .active, .h, a50f, 4⟩) := by decide

theorem test_tick_before_begin :
    after (exec .tick State.reset) (fun s => (s.trace, s.pinWrites, s.currentLine)) = some ([], [], 0) := by decide

/-! ### Renders and pin writes (section 2.5) -/

/-- `RENDER_4C` of `A5 0F`: the writes at `20 + 4x`, the final `VID_LO` at 84. -/
theorem test_render4c :
    after (exec .render4c (inActive 4 1 0)) State.pinWrites =
      some ((a50f.zip [20, 24, 28, 32, 36, 40, 44, 48, 52, 56, 60, 64, 68, 72, 76, 80]).map
        (fun r => PinWrite.mk .video r.1 r.2) ++ [⟨.video, false, 84⟩]) := by decide

/-- The final `VID_LO` at 68, 100 and 116 for costs 3, 5 and 6. -/
theorem test_render_stops :
    after (exec .render3c (inActive 4 1 0)) (fun s => s.pinWrites.getLast?) = some (some ⟨.video, false, 68⟩) ∧
      after (exec .render5c (inActive 4 1 0)) (fun s => s.pinWrites.getLast?) = some (some ⟨.video, false, 100⟩) ∧
      after (exec .render6c (inActive 4 1 0)) (fun s => s.pinWrites.getLast?) =
        some (some ⟨.video, false, 116⟩) := by decide

/-- Width 12 with `G = 8` and cost 4: two groups, final `VID_LO` at 28. -/
theorem test_render_groups :
    after (exec .render4c { inActive 4 1 0 with cfg := withConfig [3, 4, 5, 6] 8 32, width := 12 }) (fun s =>
      (s.retPixels, s.pinWrites.getLast?)) = some (a50f.take 12, some ⟨.video, false, 28⟩) := by decide

/-- R163: a row at `0xFFFF` goes on at `0x0000`. -/
theorem test_row_wraps :
    after (exec .render3c { inActive 4 1 0 with
      frameBuffer := 0xFFFF, width := 9, mem := [(0, 0x80#8), (0xFFFF, 0#8)] }) State.retPixels =
      some [false, false, false, false, false, false, false, false, true] := by decide

theorem test_render_past_the_table :
    refusal (exec .render5c { inActive 4 1 0 with cfg := withConfig [3, 4] 1 32 }) =
      some (.reservedDispatchCode 0x22) := by decide

/-- R84: entry 4 of a table of five, cost 8: the final `VID_LO` at `20 + 16 · 8`; the step takes its code. -/
theorem test_render_fifth_entry :
    after (step (State.withFetchWord { inActive 4 1 0 with cfg := withConfig [3, 4, 5, 6, 8] 1 32 } 8 0x24))
      (fun s => (s.retPixels, s.pinWrites.getLast?)) = some (a50f, some ⟨.video, false, 148⟩) := by decide

theorem test_pin_writes :
    after (exec .vidHi begun) (fun s => (s.outVideo, s.outSync, s.outTone)) = some (true, false, false) ∧
      after (exec .vidLo { begun with outVideo := true }) State.outVideo = some false ∧
      after (exec .syncHi begun) (fun s => (s.outVideo, s.outSync, s.outTone)) = some (false, true, false) ∧
      after (exec .syncLo { begun with outSync := true }) State.outSync = some false ∧
      after (exec .toneLo { begun with outTone := true }) State.outTone = some false := by decide

/-- R171: the pulse of a line of mode `V` is 40 cycles, of mode `H` 8; R177: the lines are 50 and 100 cycles long. -/
theorem test_sync_pulse :
    after (exec .tick (inVsync 12 5)) (fun s => (s.pinWrites, lineLength s)) =
        some ([⟨.sync, true, 0⟩, ⟨.sync, false, 40⟩], 50) ∧
      after (exec .tick (inBlank 5)) (fun s => (s.pinWrites, lineLength s)) =
        some ([⟨.sync, true, 0⟩, ⟨.sync, false, 8⟩], 100) := by decide

/-- R173, R254: with `syncWidthH = reloadH` the pulse is late, `SYNC` is still 1, and the next line's `SYNC` is free. -/
theorem test_late_sync :
    after (exec .tick { inBlank 5 with
      cfg := { Config.initial with ntsc := { Config.tiny with syncWidthH := 100 } } }) (fun s =>
        (s.outSync, s.syncLate, s.syncFree)) = some (true, true, false) ∧
      after (exec .tick { inBlank 5 with syncLate := true }) (fun s => (s.syncLate, s.syncFree)) =
        some (false, true) ∧
      after (exec .tick (inBlank 5)) (fun s => (syncPin s 7, syncPin s 8)) = some (true, false) := by decide

/-! ### Tone (section 2.6) and `FBW` (section 2.7) -/

theorem test_boundary_countdown :
    ∀ r ∈ [((-5 : Int), true, (-5 : Int), true), (3, true, 2, true), (1, true, 0, false), (0, false, 0, false),
        (2 ^ 31 - 1, true, 2 ^ 31 - 2, true), (-(2 ^ 31), true, -(2 ^ 31), true)],
      after (exec .vsyncLine { inVsync 12 5 with toneCountdown := r.1, toneEnable := r.2.1 }) (fun s =>
        (s.toneCountdown, s.toneEnable)) = some r.2.2 := by decide

theorem test_set_tone :
    after (exec (.setTone 2) begun) (fun s => (s.toneCountdown, s.toneEnable)) = some (2, true) ∧
      after (exec (.setTone (-1)) begun) (fun s => (s.toneCountdown, s.toneEnable)) = some (-1, true) ∧
      after (exec (.setTone 0) { begun with toneEnable := true, outTone := true }) (fun s =>
        (s.toneCountdown, s.toneEnable, s.outTone)) = some (0, false, false) := by decide

theorem test_set_tone_before_begin : refusal (exec (.setTone 5) State.reset) = some .setToneBeforeBegin := by decide

theorem test_fbw :
    after (exec (.fbw 0x0100 0x5A) begun) (fun s => memRead s.mem 0x100) = some 0x5A ∧
      after (exec (.fbw 0xFFFF 0x01) State.reset) (fun s => memRead s.mem 0xFFFF) = some 0x01 := by decide

/-! ### Reset and one step (section 2.8) -/

theorem test_step_from_reset :
    after (step (State.reset.withFetchWord 64 0x0100001000040100)) summary = some ⟨.vsync, 12, 0, 1, 0, false, .h⟩ ∧
      after (step (State.reset.withFetchWord 8 0x33)) (fun s => (s.outSync, s.dispatch, s.freeIndex)) =
        some (true, [], 1) ∧
      after (step State.reset) State.freeIndex = some 1 := by decide

theorem test_step_refuses_reserved :
    refusal (step (State.reset.withFetchWord 64 0x0200000000000001)) =
        some (.reservedCommandWord 0x0200000000000001) ∧
      refusal (step (State.reset.withFetchWord 8 0x24)) = some (.reservedDispatchCode 0x24) := by decide

/-! ### Witnesses: concrete states and operands that meet the hypotheses of each obligation -/

theorem witness_DecodeOfEncode :
    Instr.wf Config.initial (.setTone (-(2 ^ 31))) = true ∧ Instr.wf Config.initial (.setTone (2 ^ 31 - 1)) = true ∧
      Instr.wf Config.initial (.beginCmd .pal 65535 65535 65535) = true ∧
      Instr.wf Config.initial .render6c = true := by decide

theorem witness_EncodeOfDecode :
    decode (.command 0x0101FFFFFFFFFFFF#64) = some (.beginCmd .pal 65535 65535 65535) ∧
      decode (.code 0x34#8) = some .toneLo := by decide

/-- One word that decodes and matches its row, and one that does not decode. -/
theorem witness_DecodingIsByMask :
    decodeCommand 0x03000000FFFFFFFF#64 = some (.setTone (-1)) ∧
      matchesRow (tableRow (.setTone (-1))) (.command 0x03000000FFFFFFFF#64) ∧
      matchesRow (tableRow (.setTone 7)) (.command 0x03000000FFFFFFFF#64) ∧
      decodeCommand 0x0300000100000000#64 = none := by decide

/-- The power-on state with one command word presented. -/
def presenting (w : CmdWord) (s : State) : State := { s with commands := [w] }

/-- A state with one dispatch code queued. -/
def queueing (c : Code) (s : State) : State := { s with dispatch := [c] }

theorem witness_ReservedEncodingsRefused_word :
    (presenting 0x0300000100000000 begun).dispatch = [] ∧
      (presenting 0x0300000100000000 begun).commands = 0x0300000100000000 :: [] ∧
      ∀ i, ¬ matchesRow (tableRow i) (.command 0x0300000100000000) := by
  refine ⟨rfl, rfl, fun i => ?_⟩
  cases i <;> simp [matchesRow, tableRow, encodedBits]

/-- `TONE_W = 8`, operand 128: the first that does not fit. -/
theorem witness_ReservedEncodingsRefused_tone :
    (presenting 0x0300000000000080 { begun with cfg := withConfig [3] 1 8 }).dispatch = [] ∧
      (presenting 0x0300000000000080 { begun with cfg := withConfig [3] 1 8 }).commands =
        0x0300000000000080 :: [] ∧
      (0x0300000000000080 : CmdWord).extractLsb' 32 32 = 0x03000000#32 ∧
      fitsSigned (withConfig [3] 1 8).toneW ((0x0300000000000080 : CmdWord).extractLsb' 0 32).toInt = false := by
  decide

/-- The default table and the code one past it. -/
theorem witness_ReservedEncodingsRefused_code :
    (queueing 0x24 begun).dispatch = 0x24 :: [] ∧
      0x24#8 ∉ [0x10#8, 0x11#8, 0x12#8, 0x30#8, 0x31#8, 0x32#8, 0x33#8, 0x34#8] ∧
      ∀ sel : BitVec 4, sel.toNat < begun.cfg.strats.length → 0x24#8 ≠ renderCode sel := by decide

theorem witness_DispatchCodesName :
    4 ≤ (15#4).toNat ∧ decodeCode (renderCode 15#4) = some (.renderAt 15) ∧
      decodeCode (renderCode 3#4) = some .render6c := by decide

/-- A command that goes on, a command that is refused (a second `BEGIN`). -/
theorem witness_StepRunsTheDecodedOperation_command :
    (presenting 0x0200000000000000 begun).commands = 0x0200000000000000 :: [] ∧
      decodeCommand 0x0200000000000000#64 = some .tick ∧ Instr.wf begun.cfg .tick = true ∧
      (∃ t, exec .tick begun = .next t) ∧
      decodeCommand 0x0100001000040100#64 = some (.beginCmd .ntsc 16 4 0x100) ∧
      exec (.beginCmd .ntsc 16 4 0x100) begun = .refused .beginWhileStarted :=
  ⟨rfl, by decide, by decide, ⟨_, rfl⟩, by decide, rfl⟩

/-- A code that goes on, and one that is refused (an active line whose strategy index is past the table). -/
theorem witness_StepRunsTheDecodedOperation_code :
    (queueing 0x12 begun).dispatch = 0x12 :: [] ∧ decodeCode 0x12#8 = some .activeLine ∧
      Instr.wf begun.cfg .activeLine = true ∧ (∃ t, exec .activeLine (inActive 4 1 0) = .next t) ∧
      exec .activeLine { inActive 4 1 0 with strategySel := 9 } = .refused (.reservedDispatchCode 0x29) :=
  ⟨rfl, by decide, by decide, ⟨_, rfl⟩, rfl⟩

theorem witness_StepRunsTheDecodedOperation_idle : State.reset.dispatch = [] ∧ State.reset.commands = [] := by
  decide

/-- A byte of a `FILL`; a `BEGIN` after another and a line that is none, before a `FRAME`; a `BEGIN` that completes. -/
theorem witness_PseudoOperationsExpand :
    1 < ([0xA5, 0x0F] : List Byte).length ∧ (∀ l ∈ [ScriptLine.tickLine], ∀ x a b f, l ≠ .beginLine x a b f) ∧
      expandScript Config.initial none ([.beginLine .ntsc 8 8 0] ++ .beginLine .pal 16 4 0 :: [.tickLine]) =
        some [.beginCmd .ntsc 8 8 0, .beginCmd .pal 16 4 0, .tick] ∧
      ∃ t, exec (.beginCmd .ntsc 16 4 0x0100) State.reset = .next t := by
  refine ⟨by decide, fun l hl x a b f h => ?_, by decide, _, rfl⟩
  rw [List.mem_singleton.mp hl] at h
  cases h

theorem witness_PowerOnState : (∃ t, exec .tick begun = .next t) ∧ begun.started = true := ⟨⟨_, rfl⟩, rfl⟩

/-- P1's operands, and the operands whose frame buffer fills the space: 65535 wide, 8 high. -/
theorem witness_BeginWritesTheContext :
    State.reset.started = false ∧ State.reset.cfg.Wf ∧ Config.tiny = State.reset.cfg.profile .ntsc ∧
      1 = Config.tiny.displayLines / 4 - 1 ∧ 4 * (1 + 1) / 2 ≤ Config.tiny.midLine + Config.tiny.startFudge ∧
      3 = Config.tiny.midLine + Config.tiny.startFudge - 4 * (1 + 1) / 2 ∧ 3 + 4 * (1 + 1) ≤ 2 ^ 16 - 1 ∧
      Config.tiny.linesPerFrame ≤ 2 ^ 16 - 2 ∧ Config.tiny.outputStartDelay ≤ 2 ^ 16 - 1 ∧
      (16 + 7) / 8 * 4 ≤ 2 ^ 16 ∧ Config.tiny.vsyncEndLine < 2 ^ 16 ∧
      BeginPre Config.tiny 16 4 ∧ BeginPre Config.tiny 65535 8 := by decide

/-- A second `BEGIN`; a height one above the display lines; a width of 0. -/
theorem witness_BeginRefusedOutsidePrecondition :
    begun.cfg.Wf ∧ begun.started = true ∧ State.reset.started = false ∧
      ¬ (9 ≤ (begun.cfg.profile .ntsc).displayLines) ∧ ¬ (1 ≤ (0 : Word).toNat) ∧
      ¬ BeginPre (begun.cfg.profile .ntsc) 16 9 ∧ ¬ BeginPre (begun.cfg.profile .ntsc) 0 4 := by decide

/-- Width 16 (a fit), width 65 (none fits), and the default table as a run of consecutive costs. -/
theorem witness_SelectTakesTheGreatestFit :
    Config.initial.Wf ∧ 4 = 64 / ((16 + 1 - 1) / 1) ∧ Config.initial.strats[1]? = some 4 ∧
      0 = 64 / ((65 + 1 - 1) / 1) ∧ (∀ x ∈ Config.initial.strats, 0 < x) ∧
      Config.initial.strats = List.range' 3 (3 + 1) := by decide

/-- Width 21, the largest supported, and width 22. -/
theorem witness_SupportedWidthsFit :
    Config.initial.Wf ∧ Config.initial.strats[0]? = some 3 ∧ 21 = (21 + 1 - 1) / 1 ∧ 3 * 21 ≤ 64 ∧
      22 = (22 + 1 - 1) / 1 ∧ ¬ 3 * 22 ≤ 64 := by decide

theorem witness_MaxWidthIsTheLargestFit : Config.initial.Wf ∧ Config.initial.strats[3]? = some 6 := by decide

/-- The boundary with a countdown at 1 and at −1; the line that leaves vsync; a line before it. -/
theorem witness_VsyncLine :
    (inVsync 12 5).linesPerFrame.toNat ≤ (inVsync 12 5).currentLine.toNat ∧
      after (exec .vsyncLine { inVsync 12 5 with toneCountdown := 1 }) State.toneCountdown = some 0 ∧
      after (exec .vsyncLine (inVsync 12 5)) State.toneCountdown = some (-1) ∧
      (inVsync 2 5).currentLine.toNat < (inVsync 2 5).linesPerFrame.toNat ∧
      (inVsync 2 5).currentLine = (inVsync 2 5).vsyncEndLine ∧
      (inVsync 11 5).currentLine.toNat < (inVsync 11 5).linesPerFrame.toNat ∧
      (inVsync 11 5).currentLine ≠ (inVsync 11 5).vsyncEndLine := by decide

theorem witness_BlankLine :
    (inBlank 3).currentLine = (inBlank 3).activeRenderStartLine ∧
      (inBlank 11).currentLine ≠ (inBlank 11).activeRenderStartLine ∧
      (inBlank 11).currentLine.toNat + 1 = (inBlank 11).linesPerFrame.toNat ∧
      (inBlank 5).currentLine ≠ (inBlank 5).activeRenderStartLine ∧
      (inBlank 5).currentLine.toNat + 1 ≠ (inBlank 5).linesPerFrame.toNat := by decide

/-- A line that decrements, the last line, which reloads. -/
theorem witness_ActiveLine :
    (inActive 4 1 0).cfg.strats[(inActive 4 1 0).strategySel.toNat]? = some 4 ∧
      (inActive 4 1 0).verticalScaleCounter.toNat ≠ 0 ∧
      (inActive 4 1 0).currentLine.toNat + 1 ≠ (inActive 4 1 0).activeRenderEndLine.toNat ∧
      (inActive 10 0 6).verticalScaleCounter.toNat = 0 ∧
      (inActive 10 0 6).currentLine.toNat + 1 = (inActive 10 0 6).activeRenderEndLine.toNat := by decide

theorem witness_TickBeforeBeginDoesNothing : State.reset.started = false := by decide

theorem witness_TickRunsOneHandler :
    (inVsync 12 0).started = true ∧ (inActive 4 1 0).started = true ∧ (inActive 4 1 0).phase = .active ∧
      SelValid (inActive 4 1 0) := by decide

/-- One state for each clause: the boundary, the line that leaves vsync, one that stays, the blank lines that arm the
renderer, that return and that do nothing, an active line that decrements and one that reloads. -/
theorem witness_TickTransitionTable :
    (inVsync 12 0).phase = .vsync ∧ (inVsync 12 0).linesPerFrame.toNat ≤ (inVsync 12 0).currentLine.toNat ∧
      (inVsync 2 0).currentLine.toNat < (inVsync 2 0).linesPerFrame.toNat ∧
      (inVsync 2 0).currentLine = (inVsync 2 0).vsyncEndLine ∧
      (inVsync 1 0).currentLine.toNat < (inVsync 1 0).linesPerFrame.toNat ∧
      (inVsync 1 0).currentLine ≠ (inVsync 1 0).vsyncEndLine ∧
      (inBlank 3).phase = .blank ∧ (inBlank 3).currentLine = (inBlank 3).activeRenderStartLine ∧
      (inBlank 5).currentLine.toNat + 1 ≠ (inBlank 5).linesPerFrame.toNat ∧
      (inActive 5 0 0).phase = .active ∧ (inActive 5 0 0).verticalScaleCounter.toNat = 0 ∧
      (inActive 4 1 0).verticalScaleCounter.toNat ≠ 0 ∧
      (inBlank 11).started = true ∧ (inBlank 11).phase = .blank ∧ (inActive 10 1 6).started = true ∧
      (inActive 10 1 6).phase = .active ∧ SelValid (inActive 10 1 6) := by decide

theorem witness_OneLineRecordPerTick :
    (inVsync 12 0).started = true ∧
      (inVsync 12 0).cfg.strats[(inVsync 12 0).strategySel.toNat]? = some 4 ∧ (inVsync 12 0).phase ≠ .active ∧
      (inActive 4 1 0).started = true ∧
      (inActive 4 1 0).cfg.strats[(inActive 4 1 0).strategySel.toNat]? = some 4 ∧
      (inActive 4 1 0).phase = .active := by decide

/-- Both modes: the boundary has mode `V`, a blank line mode `H`; each pulse is shorter than its line. -/
theorem witness_OneSyncPulsePerLine :
    (inVsync 12 0).started = true ∧ (inVsync 12 0).phase ≠ .active ∧
      (inVsync 12 0).syncFree = false ∧ (inVsync 12 0).syncLate = false ∧
      after (exec .tick (inVsync 12 0)) (fun t => decide (syncWidth t < lineLength t)) = some true ∧
      after (exec .tick (inBlank 5)) (fun t => decide (syncWidth t < lineLength t)) = some true ∧
      SelValid (inActive 4 1 0) := by decide

theorem witness_VideoOnlyInsideTheWindow :
    (inActive 4 1 0).started = true ∧ (inActive 4 1 0).cfg.Wf ∧
      (inActive 4 1 0).cfg.strats[(inActive 4 1 0).strategySel.toNat]? = some 4 ∧
      84 = (inActive 4 1 0).outputStartDelayCycles.toNat + ((inActive 4 1 0).width.toNat + 1 - 1) / 1 * 4 ∧
      (inActive 4 1 0).phase = .active ∧ (inBlank 5).phase ≠ .active := by decide

/-- A fresh line, and one after a late pulse. -/
theorem witness_CollidedSyncIsFree :
    (inBlank 5).started = true ∧ (inBlank 5).phase ≠ .active ∧ (inBlank 5).syncFree = false ∧
      (inActive 4 1 0).phase = .active ∧ SelValid (inActive 4 1 0) ∧
      ({ inBlank 5 with syncLate := true } : State).syncLate = true := by decide

theorem witness_WaveformIsTheRecords :
    (inActive 4 1 0).syncFree = false ∧ (inActive 4 1 0).syncLate = false ∧
    (inActive 4 1 0).started = true ∧ (inActive 4 1 0).cfg.Wf ∧ SelValid (inActive 4 1 0) ∧
      (inActive 4 1 0).cfg.groupSize = 1 ∧ (inActive 4 1 0).outVideo = false := by decide

/-- Two configurations with other costs and another group size. -/
theorem witness_TickReadsNoTime :
    (withConfig [7, 9] 3 32).frameW = (inActive 4 1 0).cfg.frameW ∧ (inActive 4 1 0).phase = .active ∧
      SelValid (inActive 4 1 0) ∧ (inActive 4 1 0).strategySel.toNat < (withConfig [7, 9] 3 32).strats.length := by
  decide

theorem witness_RendersEmitTheRow :
    (Instr.render6c, 3) ∈ [(Instr.render3c, 0), (Instr.render4c, 1), (Instr.render5c, 2), (Instr.render6c, 3)] ∧
      begun.cfg.strats[3]? = some 6 ∧ Instr.renderAt 15 = .renderAt 15 ∧ 15 = (15#4).toNat ∧
      (withConfig (List.range' 1 16) 1 32).strats[15]? = some 16 := by decide

theorem witness_RendersPastTheTableRefused :
    (Instr.render6c, 3) ∈ [(Instr.render3c, 0), (Instr.render4c, 1), (Instr.render5c, 2), (Instr.render6c, 3)] ∧
      ({ begun with cfg := withConfig [3, 4, 5] 1 32 } : State).cfg.strats.length ≤ 3 ∧
      4 = (4#4).toNat ∧ begun.cfg.strats.length ≤ 4 := by decide

theorem witness_RendersInterchangeable :
    ∃ t u, exec .render3c (inActive 4 1 0) = .next t ∧ exec .render6c (inActive 4 1 0) = .next u :=
  ⟨_, _, rfl, rfl⟩

theorem witness_PixelInstants : (1 : Nat) ≤ 3 := by decide

theorem witness_SetTone :
    State.reset.started = false ∧ begun.started = true ∧ fitsSigned begun.cfg.toneW 0 = true ∧
      fitsSigned begun.cfg.toneW (-(2 ^ 31)) = true ∧ (-(2 ^ 31) : Int) ≠ 0 := by decide

/-- The clauses meet at 0, 1 and 2: one state for each side. -/
theorem witness_FrameBoundaryTone :
    (inVsync 12 0).started = true ∧ (inVsync 12 0).phase = .vsync ∧
      (inVsync 12 0).linesPerFrame.toNat ≤ (inVsync 12 0).currentLine.toNat ∧ (inVsync 12 0).toneCountdown < 0 ∧
      1 < ({ inVsync 12 0 with toneCountdown := 2 } : State).toneCountdown ∧
      ({ inVsync 12 0 with toneCountdown := 1 } : State).toneCountdown = 1 ∧
      ({ inVsync 12 0 with toneCountdown := 0 } : State).toneCountdown = 0 := by decide

theorem witness_StoppedToneStaysSilent :
    ToneSilent begun ∧ (∀ n : Int, n ≠ 0 → Instr.setTone 0 ≠ .setTone n) ∧
      (∃ t, exec (.setTone 0) begun = .next t) ∧ (∀ n : Int, n ≠ 0 → Instr.tick ≠ .setTone n) ∧
      ∃ t, exec .tick begun = .next t := by
  refine ⟨by decide, fun n hn h => ?_, ⟨_, rfl⟩, fun n _ h => ?_, ⟨_, rfl⟩⟩
  · exact hn (Instr.setTone.inj h).symm
  · cases h

theorem witness_BlockNeverAssertsTone :
    ∃ t, exec .toneLo { begun with outTone := true, pinWrites := [⟨.tone, true, 3⟩] } = .next t ∧
      PinWrite.mk .tone true 3 ∈ t.pinWrites := ⟨_, rfl, by decide⟩

theorem witness_OnlyFbwWritesMemory :
    (∀ a d, Instr.tick ≠ .fbw a d) ∧ ∃ t, exec .tick begun = .next t := by
  refine ⟨fun a d h => ?_, ⟨_, rfl⟩⟩
  cases h

/-- The byte just past the row, on an active line; any byte, on a blank line. -/
theorem witness_UnfetchedStoreCommutesWithTick :
    (∀ x, x < (inActive 4 1 0).width.toNat →
      ((inActive 4 1 0).frameBuffer.toNat + (inActive 4 1 0).currentRenderOffset.toNat + x / 8) % 2 ^ 16 ≠
        (0x0102 : Word).toNat) ∧ (inBlank 5).phase ≠ .active := by decide

theorem inv_begun : Inv begun :=
  ⟨by decide, by decide, by decide, by decide, by decide, fun _ => ⟨⟨by decide, by decide, by decide, by decide, by decide,
    by decide, by decide, by decide, by decide⟩, by decide, by decide, fun _ => by decide⟩⟩

/-- The first line with pixels and the last, which shows row 3 at offset 6. -/
theorem inv_active_first : Inv (inActive 4 1 0) :=
  ⟨by decide, by decide, by decide, by decide, by decide, fun _ => ⟨⟨by decide, by decide, by decide, by decide, by decide,
    by decide, by decide, by decide, by decide⟩, by decide, by decide, fun _ => by decide⟩⟩

theorem inv_active_last : Inv (inActive 10 1 6) :=
  ⟨by decide, by decide, by decide, by decide, by decide, fun _ => ⟨⟨by decide, by decide, by decide, by decide, by decide,
    by decide, by decide, by decide, by decide⟩, by decide, by decide, fun _ => by decide⟩⟩

theorem inv_line_zero : Inv (inVsync 0 0) :=
  ⟨by decide, by decide, by decide, by decide, by decide, fun _ => ⟨⟨by decide, by decide, by decide, by decide, by decide,
    by decide, by decide, by decide, by decide⟩, by decide, by decide, fun _ => by decide⟩⟩

/-- Operands on each side of the clauses: 1, 0 and −1, the greatest and the least. -/
theorem witness_ToneDuration :
    Running begun ∧ GeometryWf begun ∧
      ∀ n ∈ [(1 : Int), 0, -1, 2 ^ 31 - 1, -(2 ^ 31)], fitsSigned begun.cfg.toneW n = true :=
  ⟨⟨inv_begun, rfl⟩, by decide, by decide⟩

theorem witness_ReadsStayInTheRegion :
    Running (inActive 10 1 6) ∧ GeometryWf (inActive 10 1 6) ∧ (inActive 10 1 6).phase = .active ∧
      1 < rowBytes (inActive 10 1 6) := ⟨⟨inv_active_last, rfl⟩, by decide, by decide, by decide⟩

theorem witness_EveryStepKeepsTheInvariant :
    Inv (inActive 4 1 0) ∧ ∃ t, step (inActive 4 1 0) = .next t := ⟨inv_active_first, _, rfl⟩

/-- A `TICK` of P1's second active line. -/
theorem witness_SpecInvariants :
    Inv (presenting 0x0200000000000000 (inActive 5 0 0)) ∧
      after (step (presenting 0x0200000000000000 (inActive 5 0 0))) (fun t => decide (t.started = true)) =
        some true ∧
      after (step (presenting 0x0200000000000000 (inActive 5 0 0))) (fun t => decide (GeometryWf t)) =
        some true := by
  refine ⟨⟨by decide, by decide, by decide, by decide, by decide, fun _ => ⟨⟨by decide, by decide, by decide, by decide, by decide,
    by decide, by decide, by decide, by decide⟩, by decide, by decide, fun _ => by decide⟩⟩, by decide, by decide⟩

theorem witness_ConfigurationRegistersFixed :
    (presenting 0x0200000000000000 begun).started = true ∧
      ∃ t, step (presenting 0x0200000000000000 begun) = .next t := ⟨rfl, _, rfl⟩

theorem witness_ConfigurationNeverWritten : ∃ t, exec .tick begun = .next t := ⟨_, rfl⟩

theorem witness_TicksGoOnForever : Running begun := ⟨inv_begun, rfl⟩

/-- The first tick of a frame and the last. -/
theorem witness_CourseOfAFrame :
    Running begun ∧ VsyncWf begun ∧ PicturePlaced begun ∧ begun.phase = .vsync ∧
      begun.currentLine = begun.linesPerFrame ∧ 1 ≤ 1 ∧ 12 ≤ begun.linesPerFrame.toNat :=
  ⟨⟨inv_begun, rfl⟩, by decide, by decide, by decide, by decide, by decide, by decide⟩

/-- As `BEGIN` leaves the block, and counted from line 0. -/
theorem witness_AFrameTakesLTicks :
    Running begun ∧ GeometryWf begun ∧ begun.phase = .vsync ∧ begun.currentLine = begun.linesPerFrame ∧
      Running (inVsync 0 0) ∧ GeometryWf (inVsync 0 0) ∧ (inVsync 0 0).phase = .vsync ∧
      (inVsync 0 0).currentLine = 0 :=
  ⟨⟨inv_begun, rfl⟩, by decide, by decide, by decide, ⟨inv_line_zero, rfl⟩, by decide, by decide, by decide⟩

theorem witness_AFrameTakesItsCycles :
    Running begun ∧ GeometryWf begun ∧ begun.phase = .vsync ∧ begun.currentLine = begun.linesPerFrame ∧
      50 = periodOf begun.cfg (begun.cfg.profile begun.standard).reloadV ∧
      100 = periodOf begun.cfg (begun.cfg.profile begun.standard).reloadH :=
  ⟨⟨inv_begun, rfl⟩, by decide, by decide, by decide, by decide, by decide⟩

/-- The boundary line and an active line of `TINY`, whose pixels end at 84. -/
theorem witness_WorkEndsWithinTheLine :
    Running begun ∧ GeometryWf begun ∧ TimingWf begun ∧ Running (inActive 4 1 0) ∧ GeometryWf (inActive 4 1 0) ∧
      TimingWf (inActive 4 1 0) :=
  ⟨⟨inv_begun, rfl⟩, by decide, by decide, ⟨inv_active_first, rfl⟩, by decide, by decide⟩

theorem witness_LinesShowTheirRow :
    Running (inActive 10 1 6) ∧ GeometryWf (inActive 10 1 6) ∧ (inActive 10 1 6).phase = .active ∧
      3 = ((inActive 10 1 6).currentLine.toNat - (inActive 10 1 6).activeRenderStartLine.toNat - 1) /
        ((inActive 10 1 6).verticalScaleConstant.toNat + 1) :=
  ⟨⟨inv_active_last, rfl⟩, by decide, by decide, by decide⟩

/-- `V = 0`, and `V = L`. -/
theorem witness_DegenerateVsyncStays :
    begun.started = true ∧ begun.phase = .vsync ∧ begun.currentLine = begun.linesPerFrame ∧
      1 ≤ begun.linesPerFrame.toNat ∧ ({ begun with vsyncEndLine := 0 } : State).vsyncEndLine = 0 ∧
      begun.linesPerFrame.toNat ≤ ({ begun with vsyncEndLine := 12 } : State).vsyncEndLine.toNat ∧
      begun.frameCount < 2 ^ begun.cfg.frameW := by decide

end Sys2Proof.Tests
end

section
/-!
PROOF. Which states the guarded operations can leave, and the frame of the configuration (spec 00_scope.md R6): each
meaning keeps `cfg`, so every operation does.
-/

namespace Sys2Proof.Machine

/-! ### What a guarded operation that completes has met -/

/-- A `BEGIN` that completes met its preconditions (R100, R103, R104). -/
theorem execBegin_eq_next {std : Standard} {w h fb : Word} {s t : State} (ht : execBegin std w h fb s = .next t) :
    s.started = false ∧ s.cfg.Wf ∧ BeginPre (s.cfg.profile std) w.toNat h.toNat ∧ t = beginState std w h fb s := by
  unfold execBegin at ht
  split at ht
  · cases ht
  · next hs =>
    split at ht
    · cases ht
    · next hw =>
      split at ht
      · cases ht
      · next hp =>
        injection ht with ht
        exact ⟨Bool.eq_false_iff.mpr hs, not_not.mp hw, not_not.mp hp, ht.symm⟩

/-- A `SET_TONE` that completes ran on a started block (R195). -/
theorem execSetTone_eq_next {n : Int} {s t : State} (ht : execSetTone n s = .next t) :
    s.started = true ∧ t = { s with
      toneCountdown := n
      toneEnable := toneEnableOf n
      outTone := if toneEnableOf n then s.outTone else false } := by
  by_cases hs : s.started = true
  · rw [execSetTone_started n s hs] at ht
    injection ht with ht
    exact ⟨hs, ht.symm⟩
  · simp [execSetTone, hs] at ht

/-- A render that completes was of an entry of the table (R86, R165). -/
theorem renderEntry_eq_next {sel : Nat} {s t : State} (ht : renderEntry sel s = .next t) :
    sel < s.cfg.strats.length ∧ t = renderRow (costOf s.cfg sel) s := by
  by_cases h : sel < s.cfg.strats.length
  · rw [renderEntry_valid sel s h] at ht
    injection ht with ht
    exact ⟨h, ht.symm⟩
  · rw [renderEntry_invalid sel s h] at ht
    cases ht

/-- An `ACTIVE_LINE` that completes had a valid strategy index (R86, R145). -/
theorem selValid_of_execActiveLine {s t : State} (ht : execActiveLine s = .next t) : SelValid s := by
  obtain ⟨u, hu, -⟩ := andThen_eq_next ht
  exact (renderEntry_eq_next hu).1

/-! ### The configuration is kept -/

theorem execBegin_cfg {std : Standard} {w h fb : Word} {s t : State} (ht : execBegin std w h fb s = .next t) :
    t.cfg = s.cfg := by
  obtain ⟨-, -, -, rfl⟩ := execBegin_eq_next ht
  rfl

theorem execSetTone_cfg {n : Int} {s t : State} (ht : execSetTone n s = .next t) : t.cfg = s.cfg := by
  obtain ⟨-, rfl⟩ := execSetTone_eq_next ht
  rfl

theorem renderEntry_cfg {sel : Nat} {s t : State} (ht : renderEntry sel s = .next t) : t.cfg = s.cfg := by
  obtain ⟨-, rfl⟩ := renderEntry_eq_next ht
  rw [renderRow_eq]

theorem execVsyncLine_cfg {s t : State} (ht : execVsyncLine s = .next t) : t.cfg = s.cfg := by
  by_cases hb : s.linesPerFrame.toNat ≤ s.currentLine.toNat
  · rw [execVsyncLine_boundary s hb] at ht
    cases ht
    rfl
  · by_cases hv : s.currentLine.toNat = s.vsyncEndLine.toNat
    · rw [execVsyncLine_leave s (Nat.not_le.mp hb) hv] at ht
      cases ht
      rfl
    · rw [execVsyncLine_stay s (Nat.not_le.mp hb) hv] at ht
      cases ht
      rfl

theorem execBlankLine_cfg {s t : State} (ht : execBlankLine s = .next t) : t.cfg = s.cfg := by
  by_cases hs : s.currentLine.toNat = s.activeRenderStartLine.toNat
  · rw [execBlankLine_arm s hs] at ht
    cases ht
    rfl
  · by_cases hl : s.currentLine.toNat + 1 = s.linesPerFrame.toNat
    · rw [execBlankLine_wrap s hs hl] at ht
      cases ht
      rfl
    · rw [execBlankLine_stay s hs hl] at ht
      cases ht
      rfl

theorem execActiveLine_cfg {s t : State} (ht : execActiveLine s = .next t) : t.cfg = s.cfg := by
  rw [execActiveLine_eq s (selValid_of_execActiveLine ht)] at ht
  cases ht
  rfl

theorem runHandler_cfg {p : Phase} {s t : State} (ht : runHandler p s = .next t) : t.cfg = s.cfg := by
  cases p with
  | vsync => exact execVsyncLine_cfg ht
  | blank => exact execBlankLine_cfg ht
  | active => exact execActiveLine_cfg ht

/-- Before `BEGIN` a tick changes nothing; after it, entry, handler and return each keep the configuration. -/
theorem execTick_cfg {s t : State} (ht : execTick s = .next t) : t.cfg = s.cfg := by
  cases hs : s.started with
  | false =>
    rw [execTick_stopped s hs] at ht
    cases ht
    rfl
  | true =>
    obtain ⟨u, hu, rfl⟩ := execTick_cases hs ht
    calc (tickReturn s.phase u).cfg = u.cfg := tickReturn_cfg s.phase u
      _ = (tickEntry s).cfg := runHandler_cfg hu
      _ = s.cfg := tickEntry_cfg s

/-- The five pin writes keep the configuration (R170). -/
theorem next_pinWrite_cfg {w : PinWrite} {s t : State} (ht : (.next (pinWrite w s) : Result) = .next t) :
    t.cfg = s.cfg := by
  cases ht
  exact pinWrite_cfg w s

/-- Settles O45: each operation is one of the meanings above, and each of them keeps the configuration. -/
theorem configurationNeverWritten : Obligations.ConfigurationNeverWritten := by
  intro s t i ht
  cases i with
  | beginCmd => exact execBegin_cfg ht
  | tick => exact execTick_cfg ht
  | setTone => exact execSetTone_cfg ht
  | fbw a d =>
    cases ht
    exact memWrite_cfg a d s
  | vsyncLine => exact execVsyncLine_cfg ht
  | blankLine => exact execBlankLine_cfg ht
  | activeLine => exact execActiveLine_cfg ht
  | render3c | render4c | render5c | render6c | renderAt => exact renderEntry_cfg ht
  | vidLo | vidHi | syncLo | syncHi | toneLo => exact next_pinWrite_cfg ht

end Sys2Proof.Machine
end

section
/-!
PROOF. What a step with no dispatch code queued can do, and the configuration registers (spec 10_state.md R16,
40_begin_and_select.md R102): what a started block keeps of them, and what follows from `ConfigRegs` for the range of a
picture's rows.
-/

namespace Sys2Proof.Machine

/-! ### Steps of the command port -/

/-- A command word stands for one of the four operations of format `X` (R81), never for a dispatch code's. -/
theorem decodeCommand_cases {w : CmdWord} {i : Instr} (h : decodeCommand w = some i) :
    (∃ std a b f, i = .beginCmd std a b f) ∨ i = .tick ∨ (∃ n, i = .setTone n) ∨ ∃ a d, i = .fbw a d := by
  unfold decodeCommand at h
  split at h
  · split at h <;> cases h
    exact .inl ⟨_, _, _, _, rfl⟩
  split at h
  · split at h <;> cases h
    exact .inr (.inl rfl)
  split at h
  · split at h <;> cases h
    exact .inr (.inr (.inl ⟨_, rfl⟩))
  split at h
  · split at h <;> cases h
    exact .inr (.inr (.inr ⟨_, _, rfl⟩))
  · cases h

/-- One operation of the block as the timer and the host ask for them (R60), none being asked for among them: what a
step can do where no dispatch code is queued. -/
inductive CommandStep (s : State) : State → Prop where
  | idle : CommandStep s s
  | beginCmd {std : Standard} {w h fb : Word} {t : State} (ht : execBegin std w h fb s = .next t) : CommandStep s t
  | tick {t : State} (ht : execTick s = .next t) : CommandStep s t
  | setTone {n : Int} {t : State} (hn : fitsSigned s.cfg.toneW n = true) (ht : execSetTone n s = .next t) :
      CommandStep s t
  | fbw (a : Word) (d : Byte) : CommandStep s (memWrite a d s)

/-- A step with no dispatch code queued takes at most one word off the port, does what it says, and advances. -/
theorem commandStep_of_step {s t : State} (hd : s.dispatch = []) (ht : step s = .next t) :
    ∃ ws u, CommandStep { s with commands := ws } u ∧ t = advance u := by
  rcases step_eq_next ht with ⟨-, -, rfl⟩ | ⟨w, ws, i, u, -, -, hi, hw, hu, rfl⟩ | ⟨c, cs, i, u, hc, -⟩
  · exact ⟨s.commands, s, .idle, rfl⟩
  · refine ⟨ws, u, ?_, rfl⟩
    rcases decodeCommand_cases hi with ⟨std, a, b, f, rfl⟩ | rfl | ⟨n, rfl⟩ | ⟨a, d, rfl⟩
    · exact .beginCmd hu
    · exact .tick hu
    · obtain ⟨-, hn⟩ : fitsSigned 32 n = true ∧ fitsSigned s.cfg.toneW n = true := by simpa [Instr.wf] using hw
      exact .setTone hn hu
    · cases hu
      exact .fbw a d
  · rw [hd] at hc
    cases hc

/-! ### The rows of the transition table -/

/-- The guards of the rows of R150 leave out no state. -/
theorem tickRow_cases (s : State) :
    (s.phase = .vsync ∧ s.linesPerFrame.toNat ≤ s.currentLine.toNat) ∨
    (s.phase = .vsync ∧ s.currentLine.toNat < s.linesPerFrame.toNat ∧ s.currentLine.toNat = s.vsyncEndLine.toNat) ∨
    (s.phase = .vsync ∧ s.currentLine.toNat < s.linesPerFrame.toNat ∧ s.currentLine.toNat ≠ s.vsyncEndLine.toNat) ∨
    (s.phase = .blank ∧ s.currentLine.toNat = s.activeRenderStartLine.toNat) ∨
    (s.phase = .blank ∧ s.currentLine.toNat ≠ s.activeRenderStartLine.toNat ∧
      s.currentLine.toNat + 1 = s.linesPerFrame.toNat) ∨
    (s.phase = .blank ∧ s.currentLine.toNat ≠ s.activeRenderStartLine.toNat ∧
      s.currentLine.toNat + 1 ≠ s.linesPerFrame.toNat) ∨
    s.phase = .active := by
  cases s.phase <;> simp <;> omega

/-- A tick that completes on an active line had a valid strategy index (R86, R145). -/
theorem selValid_of_execTick {s t : State} (hs : s.started = true) (hp : s.phase = .active)
    (ht : execTick s = .next t) : SelValid s := by
  obtain ⟨u, hu, -⟩ := execTick_cases hs ht
  rw [hp] at hu
  exact selValid_of_execActiveLine (s := tickEntry s) hu

/-! ### The configuration registers -/

/-- The eleven configuration registers of R16. -/
def configRegisters (s : State) :=
  (s.width, s.height, s.verticalScaleConstant, s.activeRenderStartLine, s.activeRenderEndLine, s.vsyncEndLine,
    s.linesPerFrame, s.outputStartDelayCycles, s.frameBuffer, s.strategySel, s.standard)

theorem configRegisters_eq_iff (s t : State) :
    configRegisters t = configRegisters s ↔
      t.width = s.width ∧ t.height = s.height ∧ t.verticalScaleConstant = s.verticalScaleConstant ∧
      t.activeRenderStartLine = s.activeRenderStartLine ∧ t.activeRenderEndLine = s.activeRenderEndLine ∧
      t.vsyncEndLine = s.vsyncEndLine ∧ t.linesPerFrame = s.linesPerFrame ∧
      t.outputStartDelayCycles = s.outputStartDelayCycles ∧ t.frameBuffer = s.frameBuffer ∧
      t.strategySel = s.strategySel ∧ t.standard = s.standard := by
  simp only [configRegisters, Prod.mk.injEq]

/-- No row of the transition table writes a configuration register (R102, R150). -/
theorem execTick_configRegisters {s t : State} (ht : execTick s = .next t) :
    configRegisters t = configRegisters s := by
  cases hs : s.started with
  | false => rw [execTick_stopped s hs] at ht; cases ht; rfl
  | true =>
    rcases tickRow_cases s with ⟨hp, hb⟩ | ⟨hp, hb, hv⟩ | ⟨hp, hb, hv⟩ | ⟨hp, hl⟩ | ⟨hp, hl, hw⟩ | ⟨hp, hl, hw⟩ | hp
    · rw [execTick_boundary s hs hp hb] at ht; cases ht; simp [configRegisters]
    · rw [execTick_leave s hs hp hb hv] at ht; cases ht; simp [configRegisters]
    · rw [execTick_vsyncStay s hs hp hb hv] at ht; cases ht; simp [configRegisters]
    · rw [execTick_arm s hs hp hl] at ht; cases ht; simp [configRegisters]
    · rw [execTick_wrap s hs hp hl hw] at ht; cases ht; simp [configRegisters]
    · rw [execTick_blankStay s hs hp hl hw] at ht; cases ht; simp [configRegisters]
    · rw [execTick_active s hs hp (selValid_of_execTick hs hp ht)] at ht; cases ht; simp [configRegisters]

/-- Only `BEGIN` writes a configuration register, and a started block refuses it (R102, R103). -/
theorem CommandStep.configRegisters {s t : State} (hs : s.started = true) (h : CommandStep s t) :
    configRegisters t = configRegisters s := by
  cases h with
  | idle => rfl
  | beginCmd ht =>
    obtain ⟨hns, -⟩ := execBegin_eq_next ht
    simp [hs] at hns
  | tick ht => exact execTick_configRegisters ht
  | setTone hn ht =>
    obtain ⟨-, rfl⟩ := execSetTone_eq_next ht
    rfl
  | fbw a d => rfl

/-! ### The rows of the picture -/

/-- The lines of the picture, as the registers `BEGIN` wrote give them (R105, R107). -/
theorem activeLines_eq {s : State} (hc : ConfigRegs s) :
    s.activeRenderEndLine.toNat =
      s.activeRenderStartLine.toNat + s.height.toNat * (s.verticalScaleConstant.toNat + 1) := by
  obtain ⟨-, -, hk, hS, hE, -⟩ := hc
  rw [hE, hS, hk]
  rfl

/-- The row of a line of the picture starts inside the region, so its offset fits the register (R104 (f), R153). -/
theorem rowOffset_lt {s : State} (hc : ConfigRegs s) {n : Nat}
    (hn : n < s.height.toNat * (s.verticalScaleConstant.toNat + 1)) :
    rowBytes s * (n / (s.verticalScaleConstant.toNat + 1)) < 2 ^ 16 := by
  obtain ⟨-, ⟨hw, -, -, -, -, -, -, hfit⟩, -⟩ := hc
  have hrow : n / (s.verticalScaleConstant.toNat + 1) < s.height.toNat :=
    (Nat.div_lt_iff_lt_mul (Nat.succ_pos _)).mpr hn
  have hpos : 0 < rowBytes s := by unfold rowBytes rowBytesOf; omega
  calc rowBytes s * (n / (s.verticalScaleConstant.toNat + 1))
      < rowBytes s * s.height.toNat := Nat.mul_lt_mul_of_pos_left hrow hpos
    _ ≤ 2 ^ 16 := hfit

end Sys2Proof.Machine
end

section
/-!
PROOF. `BEGIN` establishes the invariant of a session: each derived register holds its value exactly, because R104
bounds it (spec 40_begin_and_select.md R100 to R110).
-/

namespace Sys2Proof.Machine

/-- The last fit is an index of the list (R110). -/
theorem lastFit_lt {r : Nat} {cs : List Nat} {i : Nat} (h : lastFit r cs = some i) : i < cs.length := by
  induction cs generalizing i with
  | nil => cases h
  | cons c cs ih =>
    rw [lastFit] at h
    split at h
    · next j hj =>
      cases h
      simpa using ih hj
    · split at h <;> cases h
      simp

/-- The selector answers an index of the table (R110). -/
theorem select_lt (c : Config) (avail width : Nat) (hne : c.strats ≠ []) :
    select c avail width < c.strats.length := by
  unfold select
  cases h : lastFit (cyclesPerGroup c avail width) c.strats with
  | none => exact List.length_pos_of_ne_nil hne
  | some i => exact lastFit_lt h

/-- R104 (e) bounds `k`: the picture has at least `k + 1` lines and ends below 2^16. -/
theorem scaleConstant_lt {p : Profile} {width height : Nat} (h : BeginPre p width height) :
    scaleConstant p height < 2 ^ 16 := by
  obtain ⟨-, hh, -, -, hE, -⟩ := h
  have hlines : scaleConstant p height + 1 ≤ pictureLines p height := Nat.le_mul_of_pos_left _ hh
  have hend : endLine p height = startLine p height + pictureLines p height := rfl
  omega

/-- `BEGIN` leaves the registers it derives (R100, R105 to R110). -/
theorem beginState_configRegs {std : Standard} {w h fb : Word} {s : State} (hcfg : s.cfg.Wf)
    (hpre : BeginPre (s.cfg.profile std) w.toNat h.toNat) : ConfigRegs (beginState std w h fb s) := by
  have hk := scaleConstant_lt hpre
  have ⟨_, _, _, _, hE, hL, hd, _⟩ := hpre
  have hS : startLine (s.cfg.profile std) h.toNat ≤ endLine (s.cfg.profile std) h.toNat := Nat.le_add_right _ _
  have ⟨hne, hlen, _⟩ := hcfg
  have hsel := select_lt s.cfg (s.cfg.profile std).activeCycles w.toNat hne
  refine ⟨hcfg, hpre, ?_, ?_, ?_, rfl, ?_, ?_, ?_⟩ <;> refine Nat.mod_eq_of_lt ?_
  · exact hk
  · omega
  · omega
  · omega
  · omega
  · omega

end Sys2Proof.Machine
end

section
/-!
PROOF. The course of a frame under a well-formed geometry (spec 41_line_tick.md R151, R153; 70_reset_and_hazards.md
R250): each row of the transition table keeps it.
-/

namespace Sys2Proof.Machine

/-! ### Facts that only the configuration registers decide -/

theorem geometryWf_congr {s t : State} (h : configRegisters t = configRegisters s) : GeometryWf t ↔ GeometryWf s := by
  obtain ⟨-, -, -, hS, hE, hV, hL, -⟩ := (configRegisters_eq_iff s t).mp h
  simp only [GeometryWf, VsyncWf, PicturePlaced, NoPicture, hS, hE, hV, hL]

theorem configRegs_congr {s t : State} (hcfg : t.cfg = s.cfg) (h : configRegisters t = configRegisters s) :
    ConfigRegs t ↔ ConfigRegs s := by
  obtain ⟨hw, hh, hk, hS, hE, hV, hL, hd, -, hsel, hstd⟩ := (configRegisters_eq_iff s t).mp h
  simp only [ConfigRegs, profileOf, hcfg, hw, hh, hk, hS, hE, hV, hL, hd, hsel, hstd]

/-- A picture that is not left out is placed (W2). -/
theorem picturePlaced_of_geometryWf {s : State} (hg : GeometryWf s) (hn : ¬ NoPicture s) : PicturePlaced s :=
  hg.2.resolve_right hn

/-! ### What `Course` asks for in each phase -/

theorem course_of_vsync {s : State} (hp : s.phase = .vsync)
    (hl : s.currentLine.toNat ≤ s.vsyncEndLine.toNat ∨ s.currentLine.toNat = s.linesPerFrame.toNat) : Course s := by
  simp [Course, hp, hl]

theorem course_of_blank {s : State} (hp : s.phase = .blank)
    (hV : s.vsyncEndLine.toNat + 1 ≤ s.currentLine.toNat) (hL : s.currentLine.toNat + 1 ≤ s.linesPerFrame.toNat)
    (hm : s.syncMode = .h)
    (hpic : NoPicture s ∨ s.currentLine.toNat ≤ s.activeRenderStartLine.toNat ∨
      s.activeRenderEndLine.toNat ≤ s.currentLine.toNat) : Course s :=
  ⟨fun h => by simp [hp] at h, fun _ => ⟨hV, hL, hm, hpic⟩, fun h => by simp [hp] at h⟩

theorem course_of_active {s : State} (hp : s.phase = .active) (hn : ¬ NoPicture s) (hm : s.syncMode = .h)
    (hS : s.activeRenderStartLine.toNat + 1 ≤ s.currentLine.toNat)
    (hE : s.currentLine.toNat + 1 ≤ s.activeRenderEndLine.toNat)
    (hoff : s.currentRenderOffset.toNat = rowBytes s * (pictureLine s / (s.verticalScaleConstant.toNat + 1)))
    (hctr : s.verticalScaleCounter.toNat =
      s.verticalScaleConstant.toNat - pictureLine s % (s.verticalScaleConstant.toNat + 1)) : Course s :=
  ⟨fun h => by simp [hp] at h, fun h => by simp [hp] at h, fun _ => ⟨hn, hm, hS, hE, hoff, hctr⟩⟩

/-- The line counter never passes `L`, and stands at `L` only before a frame boundary (R27). -/
theorem currentLine_le_of_course {s : State} (hg : GeometryWf s) (hc : Course s) :
    s.currentLine.toNat ≤ s.linesPerFrame.toNat ∧ (s.currentLine = s.linesPerFrame → s.phase = .vsync) := by
  obtain ⟨hvs, hbl, hac⟩ := hc
  have hV : VsyncWf s := hg.1
  cases hp : s.phase with
  | vsync =>
    have := hvs hp
    exact ⟨by omega, fun _ => rfl⟩
  | blank =>
    obtain ⟨-, hL, -⟩ := hbl hp
    refine ⟨by omega, fun h => ?_⟩
    rw [h] at hL
    omega
  | active =>
    obtain ⟨hn, -, -, hE, -⟩ := hac hp
    obtain ⟨-, -, hEL⟩ := picturePlaced_of_geometryWf hg hn
    refine ⟨by omega, fun h => ?_⟩
    rw [h] at hE
    omega

/-! ### The scale update -/

/-- The update moves from line `n` of the picture to line `n + 1`: a row is shown `k + 1` times, then the next (R153). -/
theorem scaleUpdate_nextRow {s : State} {n k : Nat} (hk : k = s.verticalScaleConstant.toNat)
    (hoff : s.currentRenderOffset.toNat = rowBytes s * (n / (k + 1)))
    (hctr : s.verticalScaleCounter.toNat = k - n % (k + 1))
    (hfit : rowBytes s * ((n + 1) / (k + 1)) < 2 ^ 16) :
    (scaleUpdate s).currentRenderOffset.toNat = rowBytes s * ((n + 1) / (k + 1)) ∧
      (scaleUpdate s).verticalScaleCounter.toNat = k - (n + 1) % (k + 1) := by
  have hpos : 0 < k + 1 := k.add_one_pos
  have hmod := Nat.mod_lt n hpos
  have hn := Nat.mod_add_div n (k + 1)
  rw [scaleUpdate_eq]
  by_cases hz : s.verticalScaleCounter.toNat = 0
  · obtain ⟨hdiv, hrem⟩ : (n + 1) / (k + 1) = n / (k + 1) + 1 ∧ (n + 1) % (k + 1) = 0 :=
      (Nat.div_mod_unique hpos).mpr ⟨by rw [Nat.mul_add]; omega, hpos⟩
    rw [hdiv, Nat.mul_add, Nat.mul_one, ← hoff] at hfit
    simp only [hz, if_true, hdiv, hrem, Nat.mul_add, Nat.mul_one, ← hoff, BitVec.toNat_ofNat, Nat.mod_eq_of_lt hfit]
    exact ⟨trivial, hk.symm⟩
  · obtain ⟨hdiv, hrem⟩ : (n + 1) / (k + 1) = n / (k + 1) ∧ (n + 1) % (k + 1) = n % (k + 1) + 1 :=
      (Nat.div_mod_unique hpos).mpr ⟨by omega, by omega⟩
    have hword := s.verticalScaleCounter.isLt
    simp only [hz, if_false, hdiv, hrem, hoff, BitVec.toNat_ofNat, true_and]
    omega

/-- The counter stays within its constant (R14). -/
theorem scaleUpdate_counter_le {s : State} (h : s.verticalScaleCounter.toNat ≤ s.verticalScaleConstant.toNat) :
    (scaleUpdate s).verticalScaleCounter.toNat ≤ s.verticalScaleConstant.toNat := by
  rw [scaleUpdate_eq]
  by_cases hz : s.verticalScaleCounter.toNat = 0
  · simp [hz]
  · simp [hz]
    omega

/-! ### The rows of the transition table -/

/-- A line of vertical sync: the boundary line is line 0 and W1 keeps line 1 in vertical sync; line `V` leaves it, with
the picture still to come; any other line stays short of `V`. -/
theorem course_of_vsyncTick {s t : State} (hs : s.started = true) (hg : GeometryWf s) (hc : Course s)
    (hp : s.phase = .vsync) (ht : execTick s = .next t) : Course t := by
  obtain ⟨⟨hV1, hVL⟩, hpic⟩ := hg
  have hline := hc.1 hp
  by_cases hb : s.linesPerFrame.toNat ≤ s.currentLine.toNat
  · rw [execTick_boundary s hs hp hb] at ht
    cases ht
    exact course_of_vsync (by simp [hp]) (.inl (by simpa using hV1))
  by_cases hv : s.currentLine.toNat = s.vsyncEndLine.toNat
  · rw [execTick_leave s hs hp (Nat.not_le.mp hb) hv] at ht
    cases ht
    refine course_of_blank (by simp) ?_ ?_ (by simp) ?_ <;> simp [NoPicture] <;> omega
  · rw [execTick_vsyncStay s hs hp (Nat.not_le.mp hb) hv] at ht
    cases ht
    refine course_of_vsync (by simp [hp]) (.inl ?_)
    simp
    omega

/-- A blank line: line `S` arms the renderer on the first line of the picture, with row 0 and a full counter; line
`L - 1` ends the frame; any other line stays clear of the picture. -/
theorem course_of_blankTick {s t : State} (hs : s.started = true) (hg : GeometryWf s) (hc : Course s)
    (hp : s.phase = .blank) (ht : execTick s = .next t) : Course t := by
  obtain ⟨hV, hL, hm, hpic⟩ := hc.2.1 hp
  by_cases hl : s.currentLine.toNat = s.activeRenderStartLine.toNat
  · have hn : ¬ NoPicture s := by unfold NoPicture; omega
    obtain ⟨-, hSE, hEL⟩ := picturePlaced_of_geometryWf hg hn
    rw [execTick_arm s hs hp hl] at ht
    cases ht
    have hfirst : (s.currentLine.toNat + 1) % 65536 - s.activeRenderStartLine.toNat - 1 = 0 := by omega
    refine course_of_active (by simp) (by simpa [NoPicture] using hn) (by simpa using hm) ?_ ?_ ?_ ?_
    · simp
      omega
    · simp
      omega
    · simp [pictureLine, hfirst]
    · simp [pictureLine, hfirst]
  by_cases hw : s.currentLine.toNat + 1 = s.linesPerFrame.toNat
  · rw [execTick_wrap s hs hp hl hw] at ht
    cases ht
    refine course_of_vsync (by simp) (.inr ?_)
    simp
    omega
  · rw [execTick_blankStay s hs hp hl hw] at ht
    cases ht
    refine course_of_blank (by simp [hp]) ?_ ?_ (by simpa using hm) ?_ <;> simp [NoPicture] <;> omega

/-- A line of the picture: line `E - 1` leaves it, inside the frame by W2; any other goes on to the row of the next
line, whose offset fits its register. -/
theorem course_of_activeTick {s t : State} (hs : s.started = true) (hcr : ConfigRegs s) (hg : GeometryWf s)
    (hc : Course s) (hp : s.phase = .active) (ht : execTick s = .next t) : Course t := by
  obtain ⟨hn, hm, hS, hE, hoff, hctr⟩ := hc.2.2 hp
  obtain ⟨hVS, hSE, hEL⟩ := picturePlaced_of_geometryWf hg hn
  rw [execTick_active s hs hp (selValid_of_execTick hs hp ht)] at ht
  cases ht
  by_cases hend : s.currentLine.toNat + 1 = s.activeRenderEndLine.toNat
  · refine course_of_blank (by simp [hend]) ?_ ?_ (by simpa using hm) ?_ <;> simp [NoPicture] <;> omega
  · have hlines := activeLines_eq hcr
    have hfit : rowBytes s * ((pictureLine s + 1) / (s.verticalScaleConstant.toNat + 1)) < 2 ^ 16 :=
      rowOffset_lt hcr (by unfold pictureLine; omega)
    obtain ⟨hoff', hctr'⟩ := scaleUpdate_nextRow rfl hoff hctr hfit
    rw [scaleUpdate_eq] at hoff' hctr'
    have hnext : (s.currentLine.toNat + 1) % 65536 - s.activeRenderStartLine.toNat - 1 = pictureLine s + 1 := by
      unfold pictureLine
      omega
    refine course_of_active (by simp [hend]) (by simpa [NoPicture] using hn) (by simpa using hm) ?_ ?_ ?_ ?_
    · simp
      omega
    · simp
      omega
    · simpa [pictureLine, rowBytes, hnext] using hoff'
    · simpa [pictureLine, hnext] using hctr'

/-- A tick of a started block keeps the course of the frame (R151, R153). -/
theorem course_of_execTick {s t : State} (hs : s.started = true) (hcr : ConfigRegs s) (hg : GeometryWf s)
    (hc : Course s) (ht : execTick s = .next t) : Course t := by
  cases hp : s.phase with
  | vsync => exact course_of_vsyncTick hs hg hc hp ht
  | blank => exact course_of_blankTick hs hg hc hp ht
  | active => exact course_of_activeTick hs hcr hg hc hp ht

end Sys2Proof.Machine
end

section
/-!
PROOF. The invariant of the machine is kept by every step, and R27 follows from it (spec 10_state.md section 8).
-/

namespace Sys2Proof.Machine

/-! ### The countdown -/

/-- A number that fits a width still fits after the boundary's decrement, which stops at 0 (R190, R191). -/
theorem fitsSigned_toneCountdownAfter {bits : Nat} {n : Int} (h : fitsSigned bits n = true) :
    fitsSigned bits (toneCountdownAfter n) = true := by
  simp only [fitsSigned, Bool.and_eq_true, decide_eq_true_eq] at h ⊢
  by_cases hn : 0 < n
  · have hpow : (0 : Int) < 2 ^ (bits - 1) := by positivity
    rw [toneCountdownAfter_pos hn]
    omega
  · rw [toneCountdownAfter_nonpos (Int.not_lt.mp hn)]
    exact h

/-! ### The tick -/

/-- What a tick keeps of the invariant whatever the geometry (R14, R21, R172). -/
theorem execTick_keeps {s t : State} (h : Running s) (ht : execTick s = .next t) :
    t.mem = s.mem ∧ t.frameCount < 2 ^ s.cfg.frameW ∧ fitsSigned s.cfg.toneW t.toneCountdown = true ∧
      t.dispatch = s.dispatch ∧ t.outVideo = false ∧ t.renderActive = renderActiveIn t.phase ∧
      t.verticalScaleCounter.toNat ≤ s.verticalScaleConstant.toNat := by
  obtain ⟨⟨-, hf, htone, -, hvid, hsess⟩, hs⟩ := h
  obtain ⟨-, hra, hctr, -⟩ := hsess hs
  rcases tickRow_cases s with ⟨hp, hb⟩ | ⟨hp, hb, hv⟩ | ⟨hp, hb, hv⟩ | ⟨hp, hl⟩ | ⟨hp, hl, hw⟩ | ⟨hp, hl, hw⟩ | hp
  · rw [execTick_boundary s hs hp hb] at ht
    cases ht
    simp [hp, hra, hvid, hctr, fitsSigned_toneCountdownAfter htone, Nat.mod_lt]
  · rw [execTick_leave s hs hp hb hv] at ht
    cases ht
    simp [hp, hra, hvid, hctr, htone, hf, renderActiveIn]
  · rw [execTick_vsyncStay s hs hp hb hv] at ht
    cases ht
    simp [hp, hra, hvid, hctr, htone, hf]
  · rw [execTick_arm s hs hp hl] at ht
    cases ht
    simp [hvid, htone, hf, renderActiveIn]
  · rw [execTick_wrap s hs hp hl hw] at ht
    cases ht
    simp [hp, hra, hvid, hctr, htone, hf, renderActiveIn]
  · rw [execTick_blankStay s hs hp hl hw] at ht
    cases ht
    simp [hp, hra, hvid, hctr, htone, hf]
  · have hctr' := scaleUpdate_counter_le hctr
    rw [scaleUpdate_eq] at hctr'
    rw [execTick_active s hs hp (selValid_of_execTick hs hp ht)] at ht
    cases ht
    by_cases hend : s.currentLine.toNat + 1 = s.activeRenderEndLine.toNat <;>
      simpa [hend, hp, hra, htone, hf, renderActiveIn] using hctr'

/-- `TICK` keeps the invariant. -/
theorem inv_of_execTick {s t : State} (h : Inv s) (ht : execTick s = .next t) : Inv t := by
  cases hs : s.started with
  | false =>
    rw [execTick_stopped s hs] at ht
    cases ht
    exact h
  | true =>
    have hcfg := execTick_cfg ht
    have hregs := execTick_configRegisters ht
    obtain ⟨hmem, hf, htone, hd, hvid, hra, hctr⟩ := execTick_keeps ⟨h, hs⟩ ht
    obtain ⟨-, -, hk, -⟩ := (configRegisters_eq_iff s t).mp hregs
    obtain ⟨hwf, -, -, hdisp, -, hsess⟩ := h
    obtain ⟨hcr, -, -, hcourse⟩ := hsess hs
    refine ⟨hmem ▸ hwf, hcfg ▸ hf, hcfg ▸ htone, hd.trans hdisp, hvid, fun _ => ?_⟩
    refine ⟨(configRegs_congr hcfg hregs).mpr hcr, hra, hk ▸ hctr, fun hgt => ?_⟩
    have hg := (geometryWf_congr hregs).mp hgt
    exact course_of_execTick hs hcr hg (hcourse hg) ht

/-! ### The host's operations -/

/-- `BEGIN` keeps the invariant, and starts the course of a frame before a boundary tick (R100). -/
theorem inv_of_execBegin {std : Standard} {w h fb : Word} {s t : State} (hi : Inv s)
    (ht : execBegin std w h fb s = .next t) : Inv t := by
  obtain ⟨-, hcfg, hpre, rfl⟩ := execBegin_eq_next ht
  obtain ⟨hwf, -, htone, hdisp, -⟩ := hi
  refine ⟨hwf, Nat.two_pow_pos _, htone, hdisp, rfl, fun _ => ?_⟩
  exact ⟨beginState_configRegs hcfg hpre, rfl, le_rfl, fun _ => course_of_vsync rfl (.inr rfl)⟩

/-- `SET_TONE` keeps the invariant: its operand fits the register (R83, R195). -/
theorem inv_of_execSetTone {n : Int} {s t : State} (h : Inv s) (hn : fitsSigned s.cfg.toneW n = true)
    (ht : execSetTone n s = .next t) : Inv t := by
  obtain ⟨-, rfl⟩ := execSetTone_eq_next ht
  obtain ⟨hwf, hf, -, hdisp, hvid, hsess⟩ := h
  exact ⟨hwf, hf, hn, hdisp, hvid, hsess⟩

/-- `FBW` keeps the invariant: it only stores a byte (R205). -/
theorem inv_memWrite {s : State} (a : Word) (d : Byte) (h : Inv s) : Inv (memWrite a d s) := by
  obtain ⟨hwf, hrest⟩ := h
  exact ⟨memWrite_wf a d s hwf, hrest⟩

/-! ### Every step -/

/-- The index of the free values is no part of the invariant (log 25). -/
theorem inv_advance {s : State} (h : Inv s) : Inv (advance s) := h

theorem CommandStep.inv {s t : State} (h : Inv s) (hstep : CommandStep s t) : Inv t := by
  cases hstep with
  | idle => exact h
  | beginCmd ht => exact inv_of_execBegin h ht
  | tick ht => exact inv_of_execTick h ht
  | setTone hn ht => exact inv_of_execSetTone h hn ht
  | fbw a d => exact inv_memWrite a d h

/-- Settles O41: no dispatch code is queued, so a step is one of the operations above, taken off the port; the queue
of command words is no part of the invariant. -/
theorem everyStepKeepsTheInvariant : Obligations.EveryStepKeepsTheInvariant := by
  intro s t h ht
  have ⟨_, _, _, hdisp, _⟩ := h
  obtain ⟨ws, u, hstep, rfl⟩ := commandStep_of_step hdisp ht
  exact inv_advance (hstep.inv (s := { s with commands := ws }) h)

/-- Settles O43: the invariant after the step says it all but R102, which is that no operation of a started block writes
a configuration register. -/
theorem specInvariants : Obligations.SpecInvariants := by
  intro s t h ht hst hg
  obtain ⟨-, -, -, -, -, hsess⟩ := everyStepKeepsTheInvariant s t h ht
  obtain ⟨hcr, hra, hctr, hcourse⟩ := hsess hst
  obtain ⟨hle, hat⟩ := currentLine_le_of_course hg (hcourse hg)
  have ⟨_, ⟨hwidth, hheight, _⟩, _⟩ := hcr
  refine ⟨hle, hat, hctr, hwidth, hheight, ?_, ?_, hcr, fun hs => ?_⟩
  · rw [hra]
    cases t.phase <;> simp [renderActiveIn]
  · cases t.phase <;> decide
  · obtain ⟨-, -, -, hdisp, -⟩ := h
    obtain ⟨ws, u, hstep, rfl⟩ := commandStep_of_step hdisp ht
    exact (configRegisters_eq_iff s u).mp (hstep.configRegisters (s := { s with commands := ws }) hs)

end Sys2Proof.Machine
end

section
/-!
PROOF. What a step runs (spec 30_encoding.md R80), and which operation writes memory (spec 10_state.md R24,
20_memory.md R50): each meaning but that of `FBW` keeps it.
-/

namespace Sys2Proof.Machine

/-- Settles O7: with the word taken off its queue, a step is `finish` of the operation, which only advances. -/
theorem stepRunsTheDecodedOperation : Obligations.StepRunsTheDecodedOperation := by
  refine ⟨fun s w ws i hd hc hi hw => ?_, fun s c cs i hd hi hw => ?_, step_idle⟩
  · rw [step_command hd hc hi hw]
    exact ⟨fun t ht => by rw [ht]; rfl, fun r hr => by rw [hr]; rfl⟩
  · rw [step_code hd hi hw]
    exact ⟨fun t ht => by rw [ht]; rfl, fun r hr => by rw [hr]; rfl⟩

/-! ### The memory is kept -/

theorem execBegin_mem {std : Standard} {w h fb : Word} {s t : State} (ht : execBegin std w h fb s = .next t) :
    t.mem = s.mem := by
  obtain ⟨-, -, -, rfl⟩ := execBegin_eq_next ht
  rfl

theorem execSetTone_mem {n : Int} {s t : State} (ht : execSetTone n s = .next t) : t.mem = s.mem := by
  obtain ⟨-, rfl⟩ := execSetTone_eq_next ht
  rfl

theorem renderEntry_mem {sel : Nat} {s t : State} (ht : renderEntry sel s = .next t) : t.mem = s.mem := by
  obtain ⟨-, rfl⟩ := renderEntry_eq_next ht
  rw [renderRow_eq]

theorem execVsyncLine_mem {s t : State} (ht : execVsyncLine s = .next t) : t.mem = s.mem := by
  by_cases hb : s.linesPerFrame.toNat ≤ s.currentLine.toNat
  · rw [execVsyncLine_boundary s hb] at ht; cases ht; rfl
  by_cases hv : s.currentLine.toNat = s.vsyncEndLine.toNat
  · rw [execVsyncLine_leave s (Nat.not_le.mp hb) hv] at ht; cases ht; rfl
  · rw [execVsyncLine_stay s (Nat.not_le.mp hb) hv] at ht; cases ht; rfl

theorem execBlankLine_mem {s t : State} (ht : execBlankLine s = .next t) : t.mem = s.mem := by
  by_cases hl : s.currentLine.toNat = s.activeRenderStartLine.toNat
  · rw [execBlankLine_arm s hl] at ht; cases ht; rfl
  by_cases hw : s.currentLine.toNat + 1 = s.linesPerFrame.toNat
  · rw [execBlankLine_wrap s hl hw] at ht; cases ht; rfl
  · rw [execBlankLine_stay s hl hw] at ht; cases ht; rfl

theorem execActiveLine_mem {s t : State} (ht : execActiveLine s = .next t) : t.mem = s.mem := by
  rw [execActiveLine_eq s (selValid_of_execActiveLine ht)] at ht
  cases ht
  rfl

theorem runHandler_mem {p : Phase} {s t : State} (ht : runHandler p s = .next t) : t.mem = s.mem := by
  cases p with
  | vsync => exact execVsyncLine_mem ht
  | blank => exact execBlankLine_mem ht
  | active => exact execActiveLine_mem ht

/-- Before `BEGIN` a tick changes nothing; after it, entry, handler and return each keep the memory. -/
theorem execTick_mem {s t : State} (ht : execTick s = .next t) : t.mem = s.mem := by
  cases hs : s.started with
  | false => rw [execTick_stopped s hs] at ht; cases ht; rfl
  | true =>
    obtain ⟨u, hu, rfl⟩ := execTick_cases hs ht
    calc (tickReturn s.phase u).mem = u.mem := tickReturn_mem s.phase u
      _ = (tickEntry s).mem := runHandler_mem hu
      _ = s.mem := tickEntry_mem s

/-- The five pin writes keep the memory (R170). -/
theorem next_pinWrite_mem {w : PinWrite} {s t : State} (ht : (.next (pinWrite w s) : Result) = .next t) :
    t.mem = s.mem := by
  cases ht
  exact pinWrite_mem w s

/-- Settles O38: each operation but `FBW` is one of the meanings above, and each of them keeps the memory. -/
theorem onlyFbwWritesMemory : Obligations.OnlyFbwWritesMemory := by
  intro s t i hi ht
  cases i with
  | beginCmd => exact execBegin_mem ht
  | tick => exact execTick_mem ht
  | setTone => exact execSetTone_mem ht
  | fbw a d => exact absurd rfl (hi a d)
  | vsyncLine => exact execVsyncLine_mem ht
  | blankLine => exact execBlankLine_mem ht
  | activeLine => exact execActiveLine_mem ht
  | render3c | render4c | render5c | render6c | renderAt => exact renderEntry_mem ht
  | vidLo | vidHi | syncLo | syncHi | toneLo => exact next_pinWrite_mem ht

end Sys2Proof.Machine
end

section
/-!
PROOF. What a line reads of the frame buffer: its bytes lie in the region (spec 20_memory.md R58), and a store to any
other byte commutes with the tick (R60, 42_render_and_pins.md R163).
-/

namespace Sys2Proof.Machine

/-! ### Reads of the picture's rows -/

/-- The row an active line shows is one of the picture's (R153). -/
theorem activeRow_lt_height {s : State} (hc : ConfigRegs s) (hcourse : Course s) (hp : s.phase = .active) :
    pictureLine s / (s.verticalScaleConstant.toNat + 1) < s.height.toNat := by
  obtain ⟨-, -, hS, hE, -⟩ := hcourse.2.2 hp
  have hlines := activeLines_eq hc
  refine (Nat.div_lt_iff_lt_mul (Nat.add_one_pos _)).mpr ?_
  unfold pictureLine
  omega

/-- Settles O40: byte `j` of row `r` is byte `rowBytes * r + j` of the region, and `r` is one of its rows. -/
theorem readsStayInTheRegion : Obligations.ReadsStayInTheRegion := by
  intro s ⟨⟨_, _, _, _, _, hsess⟩, hs⟩ hg hp j hj
  obtain ⟨hcr, -, -, hcourse⟩ := hsess hs
  have hrow := activeRow_lt_height hcr (hcourse hg) hp
  obtain ⟨-, -, -, -, hoff, -⟩ := (hcourse hg).2.2 hp
  refine ⟨s.currentRenderOffset.toNat + j, ?_, by rw [fetchAddr, Nat.add_assoc]⟩
  calc s.currentRenderOffset.toNat + j
      < rowBytes s * (pictureLine s / (s.verticalScaleConstant.toNat + 1) + 1) := by rw [hoff, Nat.mul_succ]; omega
    _ ≤ rowBytes s * s.height.toNat := Nat.mul_le_mul_left _ hrow

/-! ### Stores the line does not fetch -/

/-- A store outside the fetched bytes leaves the pixels of the line alone (R163, R164). -/
theorem rowPixels_memWrite {s : State} {a : Word} (d : Byte)
    (h : ∀ x, x < s.width.toNat →
      (s.frameBuffer.toNat + s.currentRenderOffset.toNat + x / 8) % 2 ^ 16 ≠ a.toNat) :
    rowPixels (memWrite a d s) = rowPixels s := by
  rw [rowPixels_eq_shown, rowPixels_eq_shown]
  refine List.map_congr_left fun x hx => ?_
  rw [memWrite_mem, memWrite_frameBuffer, memWrite_currentRenderOffset,
    memRead_put_other _ _ _ _ (h x (List.mem_range.mp hx)).symm]

/-- An active line whose strategy index is past the table is refused (R86). -/
theorem execActiveLine_refused (s : State) (h : ¬ SelValid s) :
    execActiveLine s = .refused (.reservedDispatchCode (renderCode (BitVec.ofNat 4 s.strategySel.toNat))) := by
  have hsel : ¬ SelValid (waitUntil s.outputStartDelayCycles.toNat s) := h
  rw [execActiveLine, muxRender, renderEntry_invalid _ _ hsel]
  rfl

theorem execVsyncLine_memWrite (s : State) (a : Word) (d : Byte) :
    execVsyncLine (memWrite a d s) = andThen (execVsyncLine s) (execFbw a d) := by
  by_cases hb : s.linesPerFrame.toNat ≤ s.currentLine.toNat
  · rw [execVsyncLine_boundary s hb, execVsyncLine_boundary (memWrite a d s) hb]; rfl
  have hb' := Nat.not_le.mp hb
  by_cases hv : s.currentLine.toNat = s.vsyncEndLine.toNat
  · rw [execVsyncLine_leave s hb' hv, execVsyncLine_leave (memWrite a d s) hb' hv]; rfl
  · rw [execVsyncLine_stay s hb' hv, execVsyncLine_stay (memWrite a d s) hb' hv]; rfl

theorem execBlankLine_memWrite (s : State) (a : Word) (d : Byte) :
    execBlankLine (memWrite a d s) = andThen (execBlankLine s) (execFbw a d) := by
  by_cases hl : s.currentLine.toNat = s.activeRenderStartLine.toNat
  · rw [execBlankLine_arm s hl, execBlankLine_arm (memWrite a d s) hl]; rfl
  by_cases hw : s.currentLine.toNat + 1 = s.linesPerFrame.toNat
  · rw [execBlankLine_wrap s hl hw, execBlankLine_wrap (memWrite a d s) hl hw]; rfl
  · rw [execBlankLine_stay s hl hw, execBlankLine_stay (memWrite a d s) hl hw]; rfl

/-- An active line reads memory only for its pixels (R145, R163). -/
theorem execActiveLine_memWrite {s : State} {a : Word} {d : Byte} (hpx : rowPixels (memWrite a d s) = rowPixels s) :
    execActiveLine (memWrite a d s) = andThen (execActiveLine s) (execFbw a d) := by
  by_cases hsel : SelValid s
  · rw [execActiveLine_eq s hsel, execActiveLine_eq (memWrite a d s) hsel, hpx]; rfl
  · rw [execActiveLine_refused s hsel, execActiveLine_refused (memWrite a d s) hsel]; rfl

/-- The handlers of the other phases read no memory at all. -/
theorem runHandler_memWrite {p : Phase} {s : State} {a : Word} {d : Byte}
    (hpx : p = .active → rowPixels (memWrite a d s) = rowPixels s) :
    runHandler p (memWrite a d s) = andThen (runHandler p s) (execFbw a d) := by
  cases p with
  | vsync => exact execVsyncLine_memWrite s a d
  | blank => exact execBlankLine_memWrite s a d
  | active => exact execActiveLine_memWrite (hpx rfl)

theorem tickReturn_memWrite (p : Phase) (a : Word) (d : Byte) (s : State) :
    tickReturn p (memWrite a d s) = memWrite a d (tickReturn p s) := rfl

/-- Tick entry and return read no memory, so a store that leaves the pixels alone passes a whole tick (R60, R214). -/
theorem execTick_memWrite {s : State} {a : Word} {d : Byte}
    (hpx : s.phase = .active → rowPixels (memWrite a d s) = rowPixels s) :
    execTick (memWrite a d s) = andThen (execTick s) (execFbw a d) := by
  cases hs : s.started with
  | false => rw [execTick_stopped s hs, execTick_stopped (memWrite a d s) hs]; rfl
  | true =>
    have hentry : tickEntry (memWrite a d s) = memWrite a d (tickEntry s) := rfl
    have hhandler : runHandler s.phase (memWrite a d (tickEntry s)) =
        andThen (runHandler s.phase (tickEntry s)) (execFbw a d) := runHandler_memWrite hpx
    rw [execTick_started s hs, execTick_started (memWrite a d s) hs, hentry, memWrite_phase, hhandler]
    cases runHandler s.phase (tickEntry s) with
    | next u => simp only [andThen_next, execFbw, tickReturn_memWrite]
    | fault r => rfl
    | refused r => rfl

/-- Settles O39: the store is outside the bytes of the row where the line has one. -/
theorem unfetchedStoreCommutesWithTick : Obligations.UnfetchedStoreCommutesWithTick := by
  intro s a d h
  exact execTick_memWrite fun hp => rowPixels_memWrite d (h hp)

end Sys2Proof.Machine
end

section
/-!
PROOF. The dispatch codes (spec 30_encoding.md R82, R84): what the sixteen render codes name, and that a code decodes
only to the operation whose code it is.
-/

namespace Sys2Proof

/-- The first four render codes name the rows of the default table, the others the entries past them (R84). -/
theorem decodeCode_renderCode_cases (sel : BitVec 4) :
    sel = 0#4 ∧ decodeCode (Machine.renderCode sel) = some .render3c ∨
    sel = 1#4 ∧ decodeCode (Machine.renderCode sel) = some .render4c ∨
    sel = 2#4 ∧ decodeCode (Machine.renderCode sel) = some .render5c ∨
    sel = 3#4 ∧ decodeCode (Machine.renderCode sel) = some .render6c ∨
    4 ≤ sel.toNat ∧ decodeCode (Machine.renderCode sel) = some (.renderAt sel) := by
  revert sel
  decide

/-- The code of an entry past the first four decodes to the render of that entry (R84, log 19). -/
theorem decodeCode_renderCode_of_le {sel : BitVec 4} (h : 4 ≤ sel.toNat) :
    decodeCode (Machine.renderCode sel) = some (.renderAt sel) := by
  rcases decodeCode_renderCode_cases sel with ⟨rfl, -⟩ | ⟨rfl, -⟩ | ⟨rfl, -⟩ | ⟨rfl, -⟩ | ⟨-, hi⟩
  case inr.inr.inr.inr => exact hi
  all_goals exact absurd h (by decide)

/-- A code that decodes is the code of what it decodes to (R82): a named code is given bit by bit, any other is the
four bits `0010` before the strategy index. -/
theorem encode_of_decodeCode {c : Code} {i : Instr} (h : decodeCode c = some i) : encode i = .code c := by
  unfold decodeCode at h
  split at h
  case h_13 =>
    split at h
    · next hop =>
      cases h
      rw [encode, ← hop, BitVec.extractLsb'_append_extractLsb'_eq_extractLsb' (by rfl)]
      exact congrArg Encoded.code BitVec.extractLsb'_eq_self
    · cases h
  all_goals
    next hc =>
    cases h
    exact congrArg Encoded.code (BitVec.eq_of_toNat_eq hc.symm)

end Sys2Proof

namespace Sys2Proof.Machine

/-- A render code decodes to an operation that invokes the entry it names, and is well formed exactly under the tables
that have the entry (R82, R86). -/
theorem decodeCode_renderCode_entry {sel : BitVec 4} {i : Instr} (h : decodeCode (renderCode sel) = some i) :
    (∀ c : Config, i.wf c = decide (sel.toNat < c.strats.length)) ∧ ∀ s : State, exec i s = renderEntry sel.toNat s := by
  rcases decodeCode_renderCode_cases sel with ⟨rfl, hi⟩ | ⟨rfl, hi⟩ | ⟨rfl, hi⟩ | ⟨rfl, hi⟩ | ⟨hle, hi⟩ <;>
    obtain rfl := Option.some.inj (hi.symm.trans h)
  case inr.inr.inr.inr => exact ⟨fun c => by simp [Instr.wf, hle], fun _ => rfl⟩
  all_goals exact ⟨fun _ => rfl, fun _ => rfl⟩

/-- Settles O2: the codes of the handlers, the first four strategies and the pin writes are seven to eight given bits;
the other clauses are those of the render codes. -/
theorem dispatchCodesName : Obligations.DispatchCodesName := by
  refine ⟨?_, ?_, ?_, ?_, ?_, ?_, ?_, ?_, ?_, ?_, ?_, ?_, ?_,
    fun _ hle => decodeCode_renderCode_of_le hle, fun _ _ hi => decodeCode_renderCode_entry hi⟩
  all_goals decide

end Sys2Proof.Machine
end

section
/-!
PROOF. The command words (spec 30_encoding.md R81, R83, R85): a word that matches a row decodes by the row's fields, a
word that decodes is put together again from its fields, and so the two directions of the encoding.
-/

namespace Sys2Proof

/-! ### Words that match a row -/

/-- Where a row's mask is all ones, a matching word has the row's bits (R85). -/
theorem field_of_match {w m p : CmdWord} (h : w.toNat &&& m.toNat = p.toNat) (start len : Nat)
    (hm : m.extractLsb' start len = BitVec.allOnes len) : w.extractLsb' start len = p.extractLsb' start len := by
  have hand : w &&& m = p := BitVec.eq_of_toNat_eq (by rw [BitVec.toNat_and, h])
  rw [← hand, BitVec.extractLsb'_and, hm, BitVec.and_allOnes]

theorem decodeCommand_of_matches_beginCmd {std : Standard} {a b f : Word} {w : CmdWord}
    (h : matchesRow (tableRow (.beginCmd std a b f)) (.command w)) :
    decodeCommand w = some (.beginCmd (standardOfBit (w.getLsbD 48)) (w.extractLsb' 32 16) (w.extractLsb' 16 16)
      (w.extractLsb' 0 16)) := by
  have hfield := field_of_match (m := 0xFFFE000000000000#64) (p := 0x0100000000000000#64) h.2
  have hop : w.extractLsb' 56 8 = 0x01#8 := hfield 56 8 (by decide)
  have hzero : w.extractLsb' 49 7 = 0#7 := hfield 49 7 (by decide)
  simp [decodeCommand, hop, hzero]

theorem decodeCommand_of_matches_tick {w : CmdWord} (h : matchesRow (tableRow .tick) (.command w)) :
    decodeCommand w = some .tick := by
  have hfield := field_of_match (m := 0xFFFFFFFFFFFFFFFF#64) (p := 0x0200000000000000#64) h.2
  have hop : w.extractLsb' 56 8 = 0x02#8 := hfield 56 8 (by decide)
  have hzero : w.extractLsb' 0 56 = 0#56 := hfield 0 56 (by decide)
  simp [decodeCommand, hop, hzero]

theorem decodeCommand_of_matches_setTone {n : Int} {w : CmdWord}
    (h : matchesRow (tableRow (.setTone n)) (.command w)) :
    decodeCommand w = some (.setTone (w.extractLsb' 0 32).toInt) := by
  have hfield := field_of_match (m := 0xFFFFFFFF00000000#64) (p := 0x0300000000000000#64) h.2
  have hop : w.extractLsb' 56 8 = 0x03#8 := hfield 56 8 (by decide)
  have hzero : w.extractLsb' 32 24 = 0#24 := hfield 32 24 (by decide)
  simp [decodeCommand, hop, hzero]

theorem decodeCommand_of_matches_fbw {a : Word} {d : Byte} {w : CmdWord}
    (h : matchesRow (tableRow (.fbw a d)) (.command w)) :
    decodeCommand w = some (.fbw (w.extractLsb' 8 16) (w.extractLsb' 0 8)) := by
  have hfield := field_of_match (m := 0xFFFFFFFFFF000000#64) (p := 0x0400000000000000#64) h.2
  have hop : w.extractLsb' 56 8 = 0x04#8 := hfield 56 8 (by decide)
  have hzero : w.extractLsb' 24 32 = 0#32 := hfield 24 32 (by decide)
  simp [decodeCommand, hop, hzero]

/-- A command word matches only rows of its own length, and decodes to an operation of the row it matches (R85). -/
theorem decodeCommand_of_matchesRow {i : Instr} {w : CmdWord} (h : matchesRow (tableRow i) (.command w)) :
    ∃ j, decodeCommand w = some j ∧ tableRow j = tableRow i := by
  cases i with
  | beginCmd => exact ⟨_, decodeCommand_of_matches_beginCmd h, rfl⟩
  | tick => exact ⟨_, decodeCommand_of_matches_tick h, rfl⟩
  | setTone => exact ⟨_, decodeCommand_of_matches_setTone h, rfl⟩
  | fbw => exact ⟨_, decodeCommand_of_matches_fbw h, rfl⟩
  | vsyncLine | blankLine | activeLine | render3c | render4c | render5c | render6c | renderAt
  | vidLo | vidHi | syncLo | syncHi | toneLo => exact absurd h.1 (by simp [encodedBits, tableRow])

/-! ### From a word to its operation and back -/

/-- The standard's bit is the bit it was read from (R81, D3). -/
theorem standardBit_standardOfBit (w : CmdWord) :
    standardBit (standardOfBit (w.getLsbD 48)) = w.extractLsb' 48 1 := by
  have hbit : ∀ b, standardBit (standardOfBit b) = BitVec.ofBool b := by decide
  rw [hbit]
  ext i hi
  simp [Nat.lt_one_iff.mp hi]

/-- A command word that decodes is the encoding of what it decodes to: its fields, the must-be-zero ones among them, make
up the whole word (R81). -/
theorem encode_of_decodeCommand {w : CmdWord} {i : Instr} (h : decodeCommand w = some i) : encode i = .command w := by
  unfold decodeCommand at h
  split at h
  · next hop =>
    split at h
    · next hzero =>
      cases h
      rw [encode, standardBit_standardOfBit, ← hop, ← hzero]
      iterate 5 rw [BitVec.extractLsb'_append_extractLsb'_eq_extractLsb' (by rfl)]
      exact congrArg Encoded.command BitVec.extractLsb'_eq_self
    · cases h
  split at h
  · next hop =>
    split at h
    · next hzero =>
      cases h
      rw [encode, ← hop, ← hzero, BitVec.extractLsb'_append_extractLsb'_eq_extractLsb' (by rfl)]
      exact congrArg Encoded.command BitVec.extractLsb'_eq_self
    · cases h
  split at h
  · next hop =>
    split at h
    · next hzero =>
      cases h
      rw [encode, BitVec.ofInt_toInt, ← hop, ← hzero]
      iterate 2 rw [BitVec.extractLsb'_append_extractLsb'_eq_extractLsb' (by rfl)]
      exact congrArg Encoded.command BitVec.extractLsb'_eq_self
    · cases h
  split at h
  · next hop =>
    split at h
    · next hzero =>
      cases h
      rw [encode, ← hop, ← hzero]
      iterate 3 rw [BitVec.extractLsb'_append_extractLsb'_eq_extractLsb' (by rfl)]
      exact congrArg Encoded.command BitVec.extractLsb'_eq_self
    · cases h
  · cases h

/-- The lowest field of a word is the last part appended. -/
theorem extractLsb'_append_low {m n : Nat} (x : BitVec m) (y : BitVec n) : (x ++ y).extractLsb' 0 n = y := by
  rw [BitVec.extractLsb'_append_eq_of_add_le (by omega), BitVec.extractLsb'_eq_self]

/-- `BEGIN` fills the whole word, so the standard's bit and the three 16-bit operands are read back (R81). -/
theorem decode_encode_beginCmd (std : Standard) (w h fb : Word) :
    decode (encode (.beginCmd std w h fb)) = some (.beginCmd std w h fb) := by
  have hstd : (0x01#8 ++ 0#7 ++ standardBit std ++ w ++ h ++ fb).getLsbD 48 = (standardBit std).getLsbD 0 := by
    simp only [BitVec.getLsbD_append]
    rfl
  have hw : (0x01#8 ++ 0#7 ++ standardBit std ++ w ++ h ++ fb).extractLsb' 32 16 = w := by
    iterate 2 rw [BitVec.extractLsb'_append_eq_of_le (by decide)]
    exact extractLsb'_append_low _ w
  have hh : (0x01#8 ++ 0#7 ++ standardBit std ++ w ++ h ++ fb).extractLsb' 16 16 = h := by
    rw [BitVec.extractLsb'_append_eq_of_le (by decide)]
    exact extractLsb'_append_low _ h
  have hbit : ∀ x, standardOfBit ((standardBit x).getLsbD 0) = x := fun x => by cases x <;> rfl
  rw [encode, decode, decodeCommand_of_matches_beginCmd (Laws.RowMatch.beginCmd std w h fb), hstd, hbit, hw, hh,
    extractLsb'_append_low]

/-- The operand field of `SET_TONE` is signed, and an operand that fits it is read back (R83). -/
theorem decode_encode_setTone {n : Int} (h : fitsSigned 32 n = true) :
    decode (encode (.setTone n)) = some (.setTone n) := by
  obtain ⟨hlo, hhi⟩ : -(2 : Int) ^ (32 - 1) ≤ n ∧ n < (2 : Int) ^ (32 - 1) := by simpa [fitsSigned] using h
  rw [encode, decode, decodeCommand_of_matches_setTone (Laws.RowMatch.setTone n), extractLsb'_append_low,
    BitVec.toInt_ofInt_eq_self (by decide) hlo hhi]

theorem decode_encode_fbw (a : Word) (d : Byte) : decode (encode (.fbw a d)) = some (.fbw a d) := by
  have ha : (0x04#8 ++ 0#32 ++ a ++ d).extractLsb' 8 16 = a := by
    rw [BitVec.extractLsb'_append_eq_of_le (by decide)]
    exact extractLsb'_append_low _ a
  rw [encode, decode, decodeCommand_of_matches_fbw (Laws.RowMatch.fbw a d), ha, extractLsb'_append_low]

/-- Settles O3: the command words by their fields; a dispatch code has no operand, and a render by index is well formed
only from index 4 on, where its code has no other name. -/
theorem decodeOfEncode : Obligations.DecodeOfEncode := by
  intro c i hwf
  cases i with
  | beginCmd std w h fb => exact decode_encode_beginCmd std w h fb
  | tick => exact decodeCommand_of_matches_tick Laws.RowMatch.tick
  | setTone n =>
    obtain ⟨hn, -⟩ : fitsSigned 32 n = true ∧ fitsSigned c.toneW n = true := by simpa [Instr.wf] using hwf
    exact decode_encode_setTone hn
  | fbw a d => exact decode_encode_fbw a d
  | renderAt sel =>
    obtain ⟨hle, -⟩ : 4 ≤ sel.toNat ∧ sel.toNat < c.strats.length := by simpa [Instr.wf] using hwf
    exact decodeCode_renderCode_of_le hle
  | vsyncLine | blankLine | activeLine | render3c | render4c | render5c | render6c
  | vidLo | vidHi | syncLo | syncHi | toneLo => rfl

/-- Settles O4: either format's decoder gives the word back. -/
theorem encodeOfDecode : Obligations.EncodeOfDecode := by
  intro e i h
  cases e with
  | command w => exact encode_of_decodeCommand h
  | code c => exact encode_of_decodeCode h

/-! ### Masks and matches -/

/-- Every operation's encoding matches its own row (R85). -/
theorem matchesRow_encode (i : Instr) : matchesRow (tableRow i) (encode i) := by
  cases i with
  | beginCmd std w h fb => exact Laws.RowMatch.beginCmd std w h fb
  | tick => exact Laws.RowMatch.tick
  | setTone n => exact Laws.RowMatch.setTone n
  | fbw a d => exact Laws.RowMatch.fbw a d
  | vsyncLine => exact Laws.RowMatch.vsyncLine
  | blankLine => exact Laws.RowMatch.blankLine
  | activeLine => exact Laws.RowMatch.activeLine
  | render3c => exact Laws.RowMatch.render3c
  | render4c => exact Laws.RowMatch.render4c
  | render5c => exact Laws.RowMatch.render5c
  | render6c => exact Laws.RowMatch.render6c
  | renderAt sel => exact Laws.RowMatch.renderAt sel
  | vidLo => exact Laws.RowMatch.vidLo
  | vidHi => exact Laws.RowMatch.vidHi
  | syncLo => exact Laws.RowMatch.syncLo
  | syncHi => exact Laws.RowMatch.syncHi
  | toneLo => exact Laws.RowMatch.toneLo

/-- A command word that decodes matches the row of what it decodes to: it is that operation's encoding (R85). -/
theorem matchesRow_of_decodeCommand {w : CmdWord} {i : Instr} (h : decodeCommand w = some i) :
    matchesRow (tableRow i) (.command w) :=
  encode_of_decodeCommand h ▸ matchesRow_encode i

/-- Settles O5: a word that matches two rows decodes to an operation of each, and it decodes to one only. -/
theorem decodingIsByMask : Obligations.DecodingIsByMask := by
  refine ⟨fun _ _ _ _ => rfl, rfl, fun _ => rfl, fun _ _ => rfl, fun _ _ h => matchesRow_of_decodeCommand h,
    fun w hnone i hi => ?_, fun w i j hi hj => ?_⟩
  · obtain ⟨k, hk, -⟩ := decodeCommand_of_matchesRow hi
    simp [hnone] at hk
  · obtain ⟨k, hk, hrow⟩ := decodeCommand_of_matchesRow hi
    obtain ⟨l, hl, hrow'⟩ := decodeCommand_of_matchesRow hj
    obtain rfl : k = l := Option.some.inj (hk.symm.trans hl)
    exact hrow.symm.trans hrow'

end Sys2Proof
end

section
/-!
PROOF. Reserved encodings are refused (spec 30_encoding.md R86): by the step, and by a render past the table.
-/

namespace Sys2Proof.Machine

/-! ### The refusals of the fetch -/

/-- A command word is refused when it decodes to nothing the configuration admits (R86). -/
theorem step_command_refused {s : State} {w : CmdWord} {ws : List CmdWord} (hd : s.dispatch = [])
    (hc : s.commands = w :: ws) (h : ∀ i, decodeCommand w = some i → i.wf s.cfg = false) :
    step s = .refused (.reservedCommandWord w) := by
  have hnone : accept s.cfg (decodeCommand w) = none := by simpa [accept, Option.filter_eq_none_iff] using h
  simp [step, fetch, hd, hc, hnone]

/-- A dispatch code is refused when it decodes to nothing the configuration admits (R86). -/
theorem step_code_refused {s : State} {c : Code} {cs : List Code} (hd : s.dispatch = c :: cs)
    (h : ∀ i, decodeCode c = some i → i.wf s.cfg = false) : step s = .refused (.reservedDispatchCode c) := by
  have hnone : accept s.cfg (decodeCode c) = none := by simpa [accept, Option.filter_eq_none_iff] using h
  simp [step, fetch, hd, hnone]

/-- A word with the `op8` of `SET_TONE` and its must-be-zero bits carries its operand in the low half (R81, R83). -/
theorem decodeCommand_of_setTone_half {w : CmdWord} (h : w.extractLsb' 32 32 = 0x03000000#32) :
    decodeCommand w = some (.setTone (w.extractLsb' 0 32).toInt) := by
  have hw : encode (.setTone (w.extractLsb' 0 32).toInt) = .command w := by
    rw [encode, BitVec.ofInt_toInt, show 0x03#8 ++ 0#24 = 0x03000000#32 from rfl, ← h,
      BitVec.extractLsb'_append_extractLsb'_eq_extractLsb' (by rfl)]
    exact congrArg Encoded.command BitVec.extractLsb'_eq_self
  exact decodeCommand_of_matches_setTone (hw ▸ matchesRow_encode _)

/-- A code that decodes under the configuration is one of the eight handlers and pin writes, or that of an entry of the
table (R84, R86). -/
theorem code_cases_of_decodeCode {cfg : Config} {c : Code} {i : Instr} (h : decodeCode c = some i)
    (hwf : i.wf cfg = true) :
    c ∈ [0x10#8, 0x11#8, 0x12#8, 0x30#8, 0x31#8, 0x32#8, 0x33#8, 0x34#8] ∨
      ∃ sel : BitVec 4, sel.toNat < cfg.strats.length ∧ c = renderCode sel := by
  have he := encode_of_decodeCode h
  cases i with
  | beginCmd | tick | setTone | fbw => cases he
  | vsyncLine | blankLine | activeLine | vidLo | vidHi | syncLo | syncHi | toneLo =>
    cases he
    exact .inl (by decide)
  | render3c =>
    cases he
    exact .inr ⟨0#4, of_decide_eq_true hwf, rfl⟩
  | render4c =>
    cases he
    exact .inr ⟨1#4, of_decide_eq_true hwf, rfl⟩
  | render5c =>
    cases he
    exact .inr ⟨2#4, of_decide_eq_true hwf, rfl⟩
  | render6c =>
    cases he
    exact .inr ⟨3#4, of_decide_eq_true hwf, rfl⟩
  | renderAt sel =>
    cases he
    obtain ⟨-, hlt⟩ : 4 ≤ sel.toNat ∧ sel.toNat < cfg.strats.length := by simpa [Instr.wf] using hwf
    exact .inr ⟨sel, hlt, rfl⟩

/-- Settles O6: a word that decodes matches a row; the operand of `SET_TONE` must fit `TONE_W`; a code the configuration
admits is of a handler, a pin write or an entry of the table. -/
theorem reservedEncodingsRefused : Obligations.ReservedEncodingsRefused := by
  refine ⟨fun s w ws hd hc hrow => ?_, fun s w ws hd hc hop hn => ?_, fun s c cs hd hc hsel => ?_⟩
  · exact step_command_refused hd hc fun i hi => absurd (matchesRow_of_decodeCommand hi) (hrow i)
  · refine step_command_refused hd hc fun i hi => ?_
    obtain rfl := Option.some.inj ((decodeCommand_of_setTone_half hop).symm.trans hi)
    rw [Instr.wf, hn, Bool.and_false]
  · refine step_code_refused hd fun i hi => Bool.eq_false_iff.mpr fun hwf => ?_
    rcases code_cases_of_decodeCode hi hwf with hmem | ⟨sel, hlt, rfl⟩
    · exact hc hmem
    · exact hsel sel hlt rfl

/-! ### Renders past the table -/

/-- The code of a strategy is `0x20` plus its index (R82). -/
theorem renderCode_eq (sel : BitVec 4) : renderCode sel = BitVec.ofNat 8 (0x20 + sel.toNat) := by
  revert sel
  decide

/-- Settles O28: each render runs the entry of its index, whose code is the one the refusal names. -/
theorem rendersPastTheTableRefused : Obligations.RendersPastTheTableRefused := by
  intro s i sel hi hlen
  obtain ⟨n, rfl, hexec⟩ : ∃ n : BitVec 4, sel = n.toNat ∧ exec i s = renderEntry sel s := by
    rcases hi with hmem | ⟨n, rfl, rfl⟩
    · simp only [List.mem_cons, Prod.mk.injEq, List.not_mem_nil, or_false] at hmem
      rcases hmem with ⟨rfl, rfl⟩ | ⟨rfl, rfl⟩ | ⟨rfl, rfl⟩ | ⟨rfl, rfl⟩
      · exact ⟨0#4, rfl, rfl⟩
      · exact ⟨1#4, rfl, rfl⟩
      · exact ⟨2#4, rfl, rfl⟩
      · exact ⟨3#4, rfl, rfl⟩
    · exact ⟨n, rfl, rfl⟩
  rw [hexec, renderEntry_invalid _ s (Nat.not_lt.mpr hlen), BitVec.ofNat_toNat, BitVec.setWidth_eq, renderCode_eq]

end Sys2Proof.Machine
end

section
/-!
PROOF. The pseudo-operations of event scripts (spec 30_encoding.md R89): `FILL` byte by byte, and the `BEGIN` that gives
`FRAME` its number of lines.
-/

namespace Sys2Proof.Machine

/-- `FILL` is one `FBW` for each byte, at the byte's place after the address (R89). -/
theorem fillOps_eq_mapIdx (a : Word) (bs : List Byte) :
    fillOps a bs = bs.mapIdx fun i b => .fbw (a + BitVec.ofNat 16 i) b := by
  induction bs generalizing a with
  | nil => rfl
  | cons b bs ih =>
    have hnext : ∀ i, a + 1#16 + BitVec.ofNat 16 i = a + BitVec.ofNat 16 (i + 1) := fun i => by
      rw [BitVec.ofNat_add, BitVec.add_comm (BitVec.ofNat 16 i), ← BitVec.add_assoc]
    simp [fillOps, ih, hnext, List.mapIdx_cons]

/-- The address of the model is R89's, reduced mod 2^16. -/
theorem add_ofNat_eq_mod (a : Word) (i : Nat) : a + BitVec.ofNat 16 i = BitVec.ofNat 16 ((a.toNat + i) % 2 ^ 16) :=
  BitVec.eq_of_toNat_eq (by simp)

/-- A line at the end of a script is expanded under the standard the lines before it leave (log 26). -/
theorem expandScript_concat {c : Config} {std : Option Standard} {ls : List ScriptLine} {l : ScriptLine}
    {ops last : List Instr} (h : expandScript c std ls = some ops)
    (hl : expandLine c (ls.foldl standardAfter std) l = some last) :
    expandScript c std (ls ++ [l]) = some (ops ++ last) := by
  induction ls generalizing std ops with
  | nil =>
    cases h
    have hlast : expandLine c std l = some last := hl
    simp [expandScript, hlast]
  | cons x ls ih =>
    rw [expandScript] at h
    split at h
    · next a b ha hb =>
      cases h
      rw [List.cons_append, expandScript, ha, ih hb hl]
      simp
    · cases h

/-- Lines other than `BEGIN` keep the standard in force. -/
theorem foldl_standardAfter_of_no_begin {std : Option Standard} {ls : List ScriptLine}
    (h : ∀ l ∈ ls, ∀ x a b f, l ≠ .beginLine x a b f) : ls.foldl standardAfter std = std := by
  induction ls with
  | nil => rfl
  | cons l ls ih =>
    obtain ⟨hl, hls⟩ := List.forall_mem_cons.mp h
    have hkeep : standardAfter std l = std := by
      cases l with
      | beginLine x a b f => exact absurd rfl (hl x a b f)
      | tickLine | toneLine | fbwLine | ticks | frame | fill => rfl
    rw [List.foldl_cons, hkeep, ih hls]

/-- A `BEGIN` that completes stores the profile's number of lines exactly, as R104 bounds it (R100). -/
theorem execBegin_linesPerFrame {std : Standard} {w h fb : Word} {s t : State}
    (ht : execBegin std w h fb s = .next t) : t.linesPerFrame.toNat = (s.cfg.profile std).linesPerFrame := by
  obtain ⟨-, hcfg, hpre, rfl⟩ := execBegin_eq_next ht
  obtain ⟨-, -, -, -, -, -, hlines, -⟩ := beginState_configRegs hcfg hpre
  exact hlines

/-- Settles O8: `TICKS` and `FRAME` by definition; a `FRAME` at the end of a script has the standard of the last `BEGIN`
in force; `FILL` byte by byte. -/
theorem pseudoOperationsExpand : Obligations.PseudoOperationsExpand := by
  refine ⟨fun _ _ _ => rfl, fun _ _ => rfl, fun _ => rfl, fun c s0 before between std w h fb ops hno hops => ?_,
    fun s t std w h fb ht => execBegin_linesPerFrame ht, fun c std a bs => ⟨fillOps a bs, rfl, ?_, fun i hi => ?_⟩⟩
  · have hstd : (before ++ .beginLine std w h fb :: between).foldl standardAfter s0 = some std := by
      rw [List.foldl_append, List.foldl_cons]
      exact foldl_standardAfter_of_no_begin hno
    have hframe := expandScript_concat (l := .frame) hops (congrArg (expandLine c · .frame) hstd)
    rwa [List.append_assoc, List.cons_append] at hframe
  · rw [fillOps_eq_mapIdx, List.length_mapIdx]
  · rw [fillOps_eq_mapIdx, List.getElem?_mapIdx, List.getElem?_eq_getElem hi, Option.map_some, add_ofNat_eq_mod]

end Sys2Proof.Machine
end

section
/-!
PROOF. What a started block keeps (spec 40_begin_and_select.md R102, R103): `started` and the configuration registers are
written by `BEGIN` alone, which a started block refuses.
-/

namespace Sys2Proof.Machine

/-- What `BEGIN` alone writes: `started` and the configuration registers (R16, R102, R103). -/
def sessionRegisters (s : State) := (s.started, configRegisters s)

theorem sessionRegisters_eq_iff (s t : State) :
    sessionRegisters t = sessionRegisters s ↔ t.started = s.started ∧ configRegisters t = configRegisters s := by
  simp only [sessionRegisters, Prod.mk.injEq]

theorem execSetTone_sessionRegisters {n : Int} {s t : State} (ht : execSetTone n s = .next t) :
    sessionRegisters t = sessionRegisters s := by
  obtain ⟨-, rfl⟩ := execSetTone_eq_next ht
  rfl

theorem renderEntry_sessionRegisters {sel : Nat} {s t : State} (ht : renderEntry sel s = .next t) :
    sessionRegisters t = sessionRegisters s := by
  obtain ⟨-, rfl⟩ := renderEntry_eq_next ht
  rw [renderRow_eq]
  rfl

/-- All a phase handler can write; every other field is the one it found (R135, R140, R145). -/
theorem runHandler_frame {p : Phase} {s t : State} (ht : runHandler p s = .next t) :
    t = { s with
      phase := t.phase
      currentLine := t.currentLine
      frameCount := t.frameCount
      renderActive := t.renderActive
      verticalScaleCounter := t.verticalScaleCounter
      currentRenderOffset := t.currentRenderOffset
      syncMode := t.syncMode
      toneCountdown := t.toneCountdown
      toneEnable := t.toneEnable
      outVideo := t.outVideo
      outTone := t.outTone
      lineCycle := t.lineCycle
      pinWrites := t.pinWrites
      retLine := t.retLine
      retPixels := t.retPixels } := by
  cases p with
  | vsync =>
    rw [runHandler] at ht
    by_cases hb : s.linesPerFrame.toNat ≤ s.currentLine.toNat
    · rw [execVsyncLine_boundary s hb] at ht; cases ht; rfl
    by_cases hv : s.currentLine.toNat = s.vsyncEndLine.toNat
    · rw [execVsyncLine_leave s (Nat.not_le.mp hb) hv] at ht; cases ht; rfl
    · rw [execVsyncLine_stay s (Nat.not_le.mp hb) hv] at ht; cases ht; rfl
  | blank =>
    rw [runHandler] at ht
    by_cases hl : s.currentLine.toNat = s.activeRenderStartLine.toNat
    · rw [execBlankLine_arm s hl] at ht; cases ht; rfl
    by_cases hw : s.currentLine.toNat + 1 = s.linesPerFrame.toNat
    · rw [execBlankLine_wrap s hl hw] at ht; cases ht; rfl
    · rw [execBlankLine_stay s hl hw] at ht; cases ht; rfl
  | active =>
    rw [runHandler] at ht
    rw [execActiveLine_eq s (selValid_of_execActiveLine ht)] at ht
    cases ht
    rfl

theorem runHandler_sessionRegisters {p : Phase} {s t : State} (ht : runHandler p s = .next t) :
    sessionRegisters t = sessionRegisters s := by
  rw [runHandler_frame ht]
  rfl

/-- Before `BEGIN` a tick changes nothing; after it, entry, handler and return each keep the registers. -/
theorem execTick_sessionRegisters {s t : State} (ht : execTick s = .next t) :
    sessionRegisters t = sessionRegisters s := by
  cases hs : s.started with
  | false => rw [execTick_stopped s hs] at ht; cases ht; rfl
  | true =>
    obtain ⟨u, hu, rfl⟩ := execTick_cases hs ht
    calc sessionRegisters (tickReturn s.phase u) = sessionRegisters u := by
          simp [sessionRegisters, configRegisters]
      _ = sessionRegisters (tickEntry s) := runHandler_sessionRegisters hu
      _ = sessionRegisters s := rfl

/-- The five pin writes keep the registers (R170). -/
theorem next_pinWrite_sessionRegisters {w : PinWrite} {s t : State} (ht : (.next (pinWrite w s) : Result) = .next t) :
    sessionRegisters t = sessionRegisters s := by
  cases ht
  rfl

/-- No operation of a started block writes the registers: `BEGIN` does not complete, and no other writes them. -/
theorem exec_sessionRegisters {i : Instr} {s t : State} (hs : s.started = true) (ht : exec i s = .next t) :
    sessionRegisters t = sessionRegisters s := by
  cases i with
  | beginCmd =>
    obtain ⟨hns, -⟩ := execBegin_eq_next ht
    simp [hs] at hns
  | tick => exact execTick_sessionRegisters ht
  | setTone => exact execSetTone_sessionRegisters ht
  | fbw => cases ht; rfl
  | vsyncLine => exact runHandler_sessionRegisters (p := .vsync) ht
  | blankLine => exact runHandler_sessionRegisters (p := .blank) ht
  | activeLine => exact runHandler_sessionRegisters (p := .active) ht
  | render3c | render4c | render5c | render6c | renderAt => exact renderEntry_sessionRegisters ht
  | vidLo | vidHi | syncLo | syncHi | toneLo => exact next_pinWrite_sessionRegisters ht

/-- No operation clears `started` (R103). -/
theorem exec_keeps_started {i : Instr} {s t : State} (hs : s.started = true) (ht : exec i s = .next t) :
    t.started = true := by
  obtain ⟨hkeep, -⟩ := (sessionRegisters_eq_iff s t).mp (exec_sessionRegisters hs ht)
  rw [hkeep, hs]

/-- A step of a started block keeps the registers: neither queue nor the index of the free values is one of them. -/
theorem step_sessionRegisters {s t : State} (hs : s.started = true) (ht : step s = .next t) :
    sessionRegisters t = sessionRegisters s := by
  rcases step_eq_next ht with ⟨-, -, rfl⟩ | ⟨w, ws, i, u, -, -, -, -, hu, rfl⟩ | ⟨c, cs, i, u, -, -, -, hu, rfl⟩
  · rfl
  · exact exec_sessionRegisters (t := u) (s := { s with commands := ws }) hs hu
  · exact exec_sessionRegisters (t := u) (s := { s with dispatch := cs }) hs hu

/-- Settles O44: every step of a started block keeps what only `BEGIN` writes. -/
theorem configurationRegistersFixed : Obligations.ConfigurationRegistersFixed := by
  intro s t hs ht
  obtain ⟨-, hregs⟩ := (sessionRegisters_eq_iff s t).mp (step_sessionRegisters hs ht)
  exact (configRegisters_eq_iff s t).mp hregs

end Sys2Proof.Machine
end

section
/-!
PROOF. The outcomes of `BEGIN` (spec 40_begin_and_select.md R100 to R108): it writes the Device Context inside its
preconditions and is refused outside them.
-/

namespace Sys2Proof.Machine

/-- `BEGIN` inside its preconditions completes (R100, R104). -/
theorem execBegin_next {std : Standard} {w h fb : Word} {s : State} (hs : s.started = false) (hcfg : s.cfg.Wf)
    (hpre : BeginPre (s.cfg.profile std) w.toNat h.toNat) :
    execBegin std w h fb s = .next (beginState std w h fb s) := by
  rw [execBegin, if_neg (by simp [hs]), if_neg (not_not.mpr hcfg), if_neg (not_not.mpr hpre)]

/-- `BEGIN` of a block not started, outside R104 (b) to (f), is refused. -/
theorem execBegin_refused {std : Standard} {w h fb : Word} {s : State} (hs : s.started = false) (hcfg : s.cfg.Wf)
    (hpre : ¬ BeginPre (s.cfg.profile std) w.toNat h.toNat) :
    execBegin std w h fb s = .refused .beginPrecondition := by
  rw [execBegin, if_neg (by simp [hs]), if_neg (not_not.mpr hcfg), if_pos hpre]

/-- A second `BEGIN` is refused (R103). -/
theorem execBegin_started {std : Standard} {w h fb : Word} {s : State} (hs : s.started = true) :
    execBegin std w h fb s = .refused .beginWhileStarted := if_pos hs

/-- `DC10` holds a `vsyncEndLine` that fits it (R108, log 12). -/
theorem storedVsyncEnd_toNat {p : Profile} (h : p.vsyncEndLine < 2 ^ 16) :
    (storedVsyncEnd p).toNat = p.vsyncEndLine := by
  rw [storedVsyncEnd, if_pos h]
  exact Nat.mod_eq_of_lt h

/-- Settles O11: `BEGIN` tests `started` first and the operands last; no operation of a started block clears `started`. -/
theorem beginRefusedOutsidePrecondition : Obligations.BeginRefusedOutsidePrecondition := by
  refine ⟨fun s std w h fb hs => execBegin_started hs, fun s t i hs ht => exec_keeps_started hs ht, ?_⟩
  intro s std w h fb p k n hcfg hp hk hn hs hpre
  subst hp hk hn
  exact execBegin_refused hs hcfg hpre

/-- Settles O10: R104 bounds each derived register, so it holds its value exactly; the others hold the value written or
the one they had. -/
theorem beginWritesTheContext : Obligations.BeginWritesTheContext := by
  intro s std w h fb p k n start hs hcfg hp hw hh hdisp hk hn hhalf hstart hend hlines hdelay hfit
  subst hp hk hn hstart
  have hpre : BeginPre (s.cfg.profile std) w.toNat h.toNat := ⟨hw, hh, hdisp, hhalf, hend, hlines, hdelay, hfit⟩
  obtain ⟨-, -, hscale, hS, hE, -, hL, hd, hsel⟩ := beginState_configRegs (fb := fb) hcfg hpre
  refine ⟨beginState std w h fb s, execBegin_next hs hcfg hpre, rfl, rfl, rfl, rfl, hscale, hscale, hL,
    storedVsyncEnd_toNat, hS, hE, hd, hsel, rfl, hL, ?_⟩
  and_intros <;> rfl

end Sys2Proof.Machine
end

section
/-!
PROOF. The Strategy Selector (spec 40_begin_and_select.md R109 to R112): the greatest cost that fits, and the widths whose
line fits the active window.
-/

namespace Sys2Proof.Machine

/-! ### The last fit -/

/-- There is no last fit exactly when nothing fits (R110). -/
theorem lastFit_eq_none_iff {r : Nat} {cs : List Nat} : lastFit r cs = none ↔ ∀ x ∈ cs, r < x := by
  induction cs with
  | nil => simp [lastFit]
  | cons c cs ih =>
    rw [lastFit, List.forall_mem_cons, ← ih]
    cases lastFit r cs with
    | none => simp
    | some i => simp

/-- The last fit fits (R110). -/
theorem lastFit_fits {r : Nat} {cs : List Nat} {i : Nat} (h : lastFit r cs = some i) :
    ∃ x, cs[i]? = some x ∧ x ≤ r := by
  induction cs generalizing i with
  | nil => cases h
  | cons c cs ih =>
    rw [lastFit] at h
    split at h
    · next j hj =>
      cases h
      exact ih hj
    · split at h
      · next hc =>
        cases h
        exact ⟨c, rfl, hc⟩
      · cases h

/-- An entry that fits has a last fit at or after it (R110). -/
theorem exists_lastFit_ge {r j x : Nat} {cs : List Nat} (hx : cs[j]? = some x) (hfit : x ≤ r) :
    ∃ i, lastFit r cs = some i ∧ j ≤ i := by
  induction cs generalizing j with
  | nil => cases hx
  | cons c cs ih =>
    cases j with
    | zero =>
      cases hx
      rw [lastFit]
      cases lastFit r cs with
      | none => exact ⟨0, if_pos hfit, le_rfl⟩
      | some i => exact ⟨i + 1, rfl, Nat.zero_le _⟩
    | succ j =>
      obtain ⟨i, hi, hle⟩ := ih hx
      exact ⟨i + 1, by rw [lastFit, hi], Nat.succ_le_succ hle⟩

/-! ### The selected entry -/

/-- Where an entry fits, the selected one does (R110). -/
theorem select_fits {c : Config} {avail w j x : Nat} (hx : c.strats[j]? = some x)
    (hfit : x ≤ cyclesPerGroup c avail w) :
    ∃ y, c.strats[select c avail w]? = some y ∧ y ≤ cyclesPerGroup c avail w := by
  obtain ⟨i, hi, -⟩ := exists_lastFit_ge hx hfit
  rw [select, hi]
  exact lastFit_fits hi

/-- No entry that fits comes after the selected one (R110). -/
theorem le_select {c : Config} {avail w j x : Nat} (hx : c.strats[j]? = some x)
    (hfit : x ≤ cyclesPerGroup c avail w) : j ≤ select c avail w := by
  obtain ⟨i, hi, hle⟩ := exists_lastFit_ge hx hfit
  rwa [select, hi]

/-- Where no entry fits, entry 0 is selected (R110). -/
theorem select_eq_zero {c : Config} {avail w : Nat} (h : ∀ x ∈ c.strats, cyclesPerGroup c avail w < x) :
    select c avail w = 0 := by
  rw [select, lastFit_eq_none_iff.mpr h, Option.getD_none]

/-- On a table of consecutive costs the selector clamps (R110): below the least cost none fits; otherwise entry
`min (r - cmin) m` fits, and no later one does. -/
theorem select_consecutive {c : Config} {avail w r cmin m : Nat} (hr : r = cyclesPerGroup c avail w)
    (hc : c.strats = List.range' cmin (m + 1)) :
    c.strats[select c avail w]? = some (min (max r cmin) (cmin + m)) := by
  by_cases hlow : r < cmin
  · have hnone : ∀ x ∈ c.strats, cyclesPerGroup c avail w < x := fun x hx => by
      rw [hc, List.mem_range'_1] at hx
      omega
    have hclamp : min (max r cmin) (cmin + m) = cmin := by omega
    rw [select_eq_zero hnone, hclamp, hc]
    rfl
  · have hentry : ∀ j, j ≤ m → c.strats[j]? = some (cmin + j) := fun j hj => by
      rw [hc, List.getElem?_range' (by omega), Nat.one_mul]
    have hfit : cmin + min (r - cmin) m ≤ cyclesPerGroup c avail w := by omega
    have hle := le_select (hentry _ (Nat.min_le_right _ m)) hfit
    obtain ⟨y, hy, hyr⟩ := select_fits (hentry _ (Nat.min_le_right _ m)) hfit
    have hsel : select c avail w ≤ m := by
      obtain ⟨hlt, -⟩ := List.getElem?_eq_some_iff.mp hy
      simpa [hc, Nat.lt_succ_iff] using hlt
    obtain rfl : y = cmin + select c avail w := Option.some.inj (hy.symm.trans (hentry _ hsel))
    have hclamp : min (max r cmin) (cmin + m) = cmin + select c avail w := by omega
    rw [hy, hclamp]

/-- Settles O12: the fit of an entry bounds the selector from below, and gives the clamp of consecutive costs. -/
theorem selectTakesTheGreatestFit : Obligations.SelectTakesTheGreatestFit := by
  intro c avail w r _ _ hr
  subst hr
  refine ⟨fun ⟨i, x, hx, hfit⟩ => ⟨select_fits hx hfit, fun j y hy hyr => le_select hy hyr⟩,
    fun hnone => select_eq_zero fun x hx => ?_, fun cmin m hc => select_consecutive rfl hc⟩
  obtain ⟨i, hi⟩ := List.mem_iff_getElem?.mp hx
  exact hnone i x hi

/-! ### Widths that fit the window -/

/-- A number of pixels is at most `n` groups exactly when they have room for it (R109). -/
theorem ceilDiv_le_iff {w g n : Nat} (hg : 0 < g) : ceilDiv w g ≤ n ↔ w ≤ g * n := by
  rw [ceilDiv, ← Nat.ceilDiv_eq_add_pred_div, ceilDiv_le_iff_le_mul hg]

/-- A line with a pixel has a group (R109). -/
theorem ceilDiv_pos {w g : Nat} (hg : 0 < g) (hw : 0 < w) : 0 < ceilDiv w g :=
  Nat.div_pos (by omega) hg

/-- In a table of rising costs entry 0 has the least (R6, D4). -/
theorem firstCost_le {costs : List Nat} {c0 x : Nat} (hsorted : costs.Pairwise (· < ·)) (h0 : costs[0]? = some c0)
    (hx : x ∈ costs) : c0 ≤ x := by
  cases costs with
  | nil => cases h0
  | cons c cs =>
    obtain rfl : c = c0 := Option.some.inj h0
    exact (hsorted.imp Nat.le_of_lt).rel_head hx

/-- Settles O13: a line fits the window when its cost fits the cycles per group; where the least cost does not, no cost
does. -/
theorem supportedWidthsFit : Obligations.SupportedWidthsFit := by
  intro c avail w c0 g ⟨_, _, hsorted, _, hgroup, _⟩ hw hc0 hg
  have hpos : 0 < g := hg ▸ ceilDiv_pos hgroup hw
  have hgroups : cyclesPerGroup c avail w = avail / g := by rw [hg]; rfl
  have hiff : ∀ x, x * g ≤ avail ↔ x ≤ cyclesPerGroup c avail w := fun x => by
    rw [hgroups, Nat.le_div_iff_mul_le hpos]
  refine ⟨hgroups ▸ hiff c0, fun hfit => ?_, fun hfit => ⟨select_eq_zero fun x hx => ?_, Nat.not_le.mp hfit⟩⟩
  · obtain ⟨x, hx, hxr⟩ := select_fits hc0 ((hiff c0).mp hfit)
    exact ⟨x, hx, (hiff x).mpr hxr⟩
  · have hleast : c0 ≤ x := firstCost_le hsorted hc0 hx
    rw [hiff] at hfit
    omega

/-- The cost of an entry of the table (R109). -/
theorem costOf_eq {c : Config} {i x : Nat} (h : c.strats[i]? = some x) : costOf c i = x := by
  rw [costOf, h, Option.getD_some]

/-- Settles O14: the line of a width has `ceil(w / G)` groups, and they fit when there are at most `avail / x` of them. -/
theorem maxWidthIsTheLargestFit : Obligations.MaxWidthIsTheLargestFit := by
  intro c avail i x w ⟨_, _, _, hcost, hgroup, _⟩ hx
  have hxpos : 0 < x := hcost x (List.mem_of_getElem? hx)
  refine ⟨by rw [cyclesPerLine, costOf_eq hx]; rfl, by rw [maxWidth, costOf_eq hx], ?_⟩
  calc x * ceilDiv w c.groupSize ≤ avail ↔ ceilDiv w c.groupSize ≤ avail / x := by
        rw [Nat.le_div_iff_mul_le hxpos, Nat.mul_comm]
    _ ↔ w ≤ c.groupSize * (avail / x) := ceilDiv_le_iff hgroup

end Sys2Proof.Machine
end

section
/-!
PROOF. The phase handlers and the whole `TICK` (spec 41_line_tick.md R130 to R145, R150): each clause is one branch of a
handler or one row of the transition table.
-/

namespace Sys2Proof.Machine

/-! ### The phase handlers -/

/-- Settles O15: the three clauses are the three branches of the handler. -/
theorem vsyncLine : Obligations.VsyncLine := by
  refine fun s => ⟨fun hb => ?_, fun hb hv => ?_, fun hb hv => ?_⟩
  · refine ⟨_, execVsyncLine_boundary s hb, rfl, rfl, rfl, rfl, fun hz => ?_, fun hz => ?_, rfl, rfl, rfl⟩
    · have hstop : toneStops s.toneCountdown = true := decide_eq_true hz
      simp [hstop]
    · have hstop : toneStops s.toneCountdown = false := decide_eq_false hz
      simp [hstop]
  · exact execVsyncLine_leave s hb (congrArg BitVec.toNat hv)
  · exact execVsyncLine_stay s hb (BitVec.toNat_ne.mp hv)

/-- Settles O16: the three clauses are the three branches of the handler. -/
theorem blankLine : Obligations.BlankLine := fun s =>
  ⟨fun hl => execBlankLine_arm s (congrArg BitVec.toNat hl),
    fun hl hw => execBlankLine_wrap s (BitVec.toNat_ne.mp hl) hw,
    fun hl hw => execBlankLine_stay s (BitVec.toNat_ne.mp hl) hw⟩

/-- Settles O17: an index that names an entry is below the length of the table, so the line completes, at that entry's
cost. -/
theorem activeLine : Obligations.ActiveLine := by
  intro s c hc
  obtain ⟨hsel, -⟩ := List.getElem?_eq_some_iff.mp hc
  have hcost : liveCost s = c := costOf_eq hc
  have hctr := s.verticalScaleCounter.isLt
  refine ⟨_, execActiveLine_eq s hsel, rowPixels_eq_shown s, by simp [hcost], rfl, rfl, fun hz => ?_, fun hz => ?_,
    fun hend => ?_, fun hend => ?_, rfl⟩
  · simp [hz, rowBytes, rowBytesOf]
  · simp [hz]
    omega
  · simp [hend]
  · simp [hend]

/-! ### `TICK` -/

/-- Settles O18: `TICK` tests `started` first. -/
theorem tickBeforeBeginDoesNothing : Obligations.TickBeforeBeginDoesNothing := execTick_stopped

/-- The operation of a phase is its handler (R82, R132). -/
theorem exec_handler (p : Phase) (s : State) :
    exec (match p with | .vsync => .vsyncLine | .blank => .blankLine | .active => .activeLine) s = runHandler p s := by
  cases p <;> rfl

/-- Settles O19: a tick is entry, the handler of the phase it finds, and the return. No handler touches the trace, the
configuration or the strategy index, so the record extends the trace as the tick found it, at the live cost. -/
theorem tickRunsOneHandler : Obligations.TickRunsOneHandler := by
  intro s hs hsel
  obtain ⟨u, hu, ht⟩ := execTick_completes s hs hsel
  refine ⟨u, tickReturn s.phase u, ?_, ht, ?_, ?_, ?_⟩
  · rw [← hu]
    exact exec_handler s.phase (tickEntry s)
  · simp
  · have htrace : u.trace = s.trace := by rw [runHandler_frame hu]; rfl
    have hcost : liveCost u = liveCost s := by rw [runHandler_frame hu]; rfl
    rw [tickReturn_trace, htrace, hcost]
  · rw [tickReturn_eq]

/-- Settles O20: each clause is read off the rows of its phase. -/
theorem tickTransitionTable : Obligations.TickTransitionTable := by
  intro s hs hsel
  rcases tickRow_cases s with ⟨hp, hb⟩ | ⟨hp, hb, hv⟩ | ⟨hp, hb, hv⟩ | ⟨hp, hl⟩ | ⟨hp, hl, hw⟩ | ⟨hp, hl, hw⟩ | hp
  · refine ⟨_, execTick_boundary s hs hp hb, ?_⟩
    have hnb := Nat.not_lt.mpr hb
    have hstop : (if 0 < s.toneCountdown then s.toneCountdown - 1 else s.toneCountdown) = 0 ↔
        toneStops s.toneCountdown = true := decide_eq_true_iff.symm
    simp [hp, hb, hnb, toneCountdownAfter, hstop]
  · refine ⟨_, execTick_leave s hs hp hb hv, ?_⟩
    have hVL := hv ▸ hb
    have hnVL := Nat.not_le.mpr hVL
    simp [hp, hVL, hnVL, BitVec.eq_of_toNat_eq hv]
  · refine ⟨_, execTick_vsyncStay s hs hp hb hv, ?_⟩
    have hnb := Nat.not_le.mpr hb
    simp [hp, hb, hnb, BitVec.toNat_ne.mpr hv]
  · refine ⟨_, execTick_arm s hs hp hl, ?_⟩
    simp [hp, BitVec.eq_of_toNat_eq hl]
  · refine ⟨_, execTick_wrap s hs hp hl hw, ?_⟩
    simp [hp, hw, BitVec.toNat_ne.mpr hl]
  · refine ⟨_, execTick_blankStay s hs hp hl hw, ?_⟩
    simp [hp, hw, BitVec.toNat_ne.mpr hl]
  · refine ⟨_, execTick_active s hs hp (hsel hp), ?_⟩
    have hctr := s.verticalScaleCounter.isLt
    by_cases hz : s.verticalScaleCounter.toNat = 0
    · simp [hp, hz, rowBytes, rowBytesOf]
    · simp [hp, hz]
      omega

end Sys2Proof.Machine
end

section
/-!
PROOF. Running states go on for ever, and what one tick of them does to the line counter, `frameCount`, the sync mode and
the trace (spec 41_line_tick.md R133, R150, R153; 42_render_and_pins.md R175).
-/

namespace Sys2Proof.Machine

/-- `BEGIN` stored an index of the table (R110). -/
theorem selValid_of_configRegs {s : State} (hc : ConfigRegs s) : SelValid s := by
  obtain ⟨⟨hne, -⟩, -, -, -, -, -, -, -, hsel⟩ := hc
  rw [SelValid, hsel]
  exact select_lt s.cfg (profileOf s).activeCycles s.width.toNat hne

/-- A tick keeps a running state running. -/
theorem running_of_execTick {s t : State} (h : Running s) (ht : execTick s = .next t) : Running t :=
  ⟨inv_of_execTick h.1 ht, exec_keeps_started (i := .tick) h.2 ht⟩

/-- No tick of a running state is refused: its strategy index names an entry of the table. -/
theorem exists_execTick {s : State} (h : Running s) : ∃ t, execTick s = .next t := by
  obtain ⟨⟨-, -, -, -, -, hsess⟩, hs⟩ := h
  obtain ⟨hcr, -⟩ := hsess hs
  obtain ⟨u, -, ht⟩ := execTick_completes s hs fun _ => selValid_of_configRegs hcr
  exact ⟨_, ht⟩

/-- Settles O46: each tick completes and keeps the machine running. -/
theorem ticksGoOnForever : Obligations.TicksGoOnForever := by
  intro n
  induction n with
  | zero => exact fun s h => ⟨s, rfl, h⟩
  | succ n ih =>
    intro s h
    obtain ⟨t, ht⟩ := exists_execTick h
    rw [runTicks_succ n ht]
    exact ih t (running_of_execTick h ht)

/-- The line record of a tick (R175): the boundary line is line 0. -/
theorem execTick_trace {s t : State} (hs : s.started = true) (ht : execTick s = .next t) :
    t.trace = s.trace ++
      [⟨if s.phase = .vsync ∧ s.linesPerFrame.toNat ≤ s.currentLine.toNat then 0 else s.currentLine, s.phase,
        t.syncMode, if s.phase = .active then rowPixels s else [], liveCost s⟩] := by
  rcases tickRow_cases s with ⟨hp, hb⟩ | ⟨hp, hb, hv⟩ | ⟨hp, hb, hv⟩ | ⟨hp, hl⟩ | ⟨hp, hl, hw⟩ | ⟨hp, hl, hw⟩ | hp
  · rw [execTick_boundary s hs hp hb] at ht; cases ht; simp [hp, hb, liveCost]
  · rw [execTick_leave s hs hp hb hv] at ht; cases ht; simp [hp, Nat.not_le.mpr hb, liveCost]
  · rw [execTick_vsyncStay s hs hp hb hv] at ht; cases ht; simp [hp, Nat.not_le.mpr hb, liveCost]
  · rw [execTick_arm s hs hp hl] at ht; cases ht; simp [hp, liveCost]
  · rw [execTick_wrap s hs hp hl hw] at ht; cases ht; simp [hp, liveCost]
  · rw [execTick_blankStay s hs hp hl hw] at ht; cases ht; simp [hp, liveCost]
  · rw [execTick_active s hs hp (selValid_of_execTick hs hp ht)] at ht; cases ht; simp [hp, liveCost]

/-- Settles O51: the record's pixels are those at the current offset, which the course of the frame gives. -/
theorem linesShowTheirRow : Obligations.LinesShowTheirRow := by
  intro s row h hg hp hrow
  have ⟨⟨_, _, _, _, _, hsess⟩, hs⟩ := h
  obtain ⟨hcr, -, -, hcourse⟩ := hsess hs
  have hlt := activeRow_lt_height hcr (hcourse hg) hp
  obtain ⟨-, -, -, -, hoff, -⟩ := (hcourse hg).2.2 hp
  rw [pictureLine, ← hrow] at hlt hoff
  obtain ⟨t, ht⟩ := exists_execTick h
  refine ⟨hlt, t, _, ht, execTick_trace hs ht, by simp [hp], ?_⟩
  simp only [hp, if_true, rowPixels_eq_shown, hoff]
  rfl

/-- A tick before the end of the frame counts the line and no frame, and changes the sync mode only where it leaves
vertical sync (R133, R150). -/
theorem execTick_within {s t : State} (hs : s.started = true) (hL : s.currentLine.toNat < s.linesPerFrame.toNat)
    (ht : execTick s = .next t) :
    t.currentLine.toNat = s.currentLine.toNat + 1 ∧ t.frameCount = s.frameCount ∧
      t.syncMode = if s.phase = .vsync ∧ s.currentLine = s.vsyncEndLine then .h else s.syncMode := by
  obtain ⟨t', ht', -, hvsync, -, -, -, hother⟩ := tickTransitionTable s hs fun hp => selValid_of_execTick hs hp ht
  cases ht.symm.trans ht'
  have hnext : (s.currentLine + 1).toNat = s.currentLine.toNat + 1 := by
    have hword := s.linesPerFrame.isLt
    simp
    omega
  by_cases hp : s.phase = .vsync
  · obtain ⟨-, hmode, hline, hframe, -⟩ := hvsync hp hL
    simp only [hp, hmode, hline, hnext, hframe, true_and]
  · obtain ⟨hline, hframe, hmode, -⟩ := hother hp
    simp only [hp, hmode, hline, hnext, hframe, false_and, if_false, and_self]

/-- The tick of a frame boundary runs line 0 in mode `V` and counts the frame (R150). -/
theorem execTick_atBoundary {s t : State} (h : AtBoundary s) (ht : execTick s = .next t) :
    t.currentLine = 1 ∧ t.frameCount = (s.frameCount + 1) % 2 ^ s.cfg.frameW ∧ t.syncMode = .v := by
  obtain ⟨hs, hp, hL⟩ := h
  obtain ⟨t', ht', hboundary, -⟩ := tickTransitionTable s hs fun hp => selValid_of_execTick hs hp ht
  cases ht.symm.trans ht'
  obtain ⟨-, hline, hframe, hmode, -⟩ := hboundary hp hL
  exact ⟨hline, hframe, hmode⟩

end Sys2Proof.Machine
end

section
/-!
PROOF. The lines of a frame under a well-formed geometry (spec 41_line_tick.md R151, R152): the phase, the sync mode and
the record of each line follow from its number, so a run of ticks is described by the lines it runs.
-/

namespace Sys2Proof.Machine

/-! ### Phase and mode of a line -/

/-- R151: the phase in which line `j` of a frame is found; line `L` is the boundary, found in `VSYNC`. -/
def framePhase (s : State) (j : Nat) : Phase :=
  if j ≤ s.vsyncEndLine.toNat ∨ s.linesPerFrame.toNat ≤ j then .vsync
  else if s.vsyncEndLine.toNat < s.activeRenderStartLine.toNat ∧ s.activeRenderStartLine.toNat < j ∧
    j < s.activeRenderEndLine.toNat then .active
  else .blank

/-- R151: `syncMode` where line `j` is found, in a frame whose vertical sync has mode `m`. -/
def lineMode (s : State) (m : SyncMode) (j : Nat) : SyncMode := if j ≤ s.vsyncEndLine.toNat then m else .h

theorem framePhase_congr {s t : State} (h : configRegisters t = configRegisters s) : framePhase t = framePhase s := by
  obtain ⟨-, -, -, hS, hE, hV, hL, -⟩ := (configRegisters_eq_iff s t).mp h
  funext j
  simp only [framePhase, hS, hE, hV, hL]

/-- The course of the frame leaves each line one phase. -/
theorem phase_eq_framePhase {s : State} (hg : GeometryWf s) (hc : Course s) :
    s.phase = framePhase s s.currentLine.toNat := by
  obtain ⟨hvs, hbl, hac⟩ := hc
  unfold framePhase
  cases hp : s.phase with
  | vsync =>
    have := hvs hp
    rw [if_pos (by omega)]
  | blank =>
    obtain ⟨hV, hL, -, hpic⟩ := hbl hp
    rw [if_neg (by omega), if_neg (by unfold NoPicture at hpic; omega)]
  | active =>
    obtain ⟨hn, -, hS, hE, -⟩ := hac hp
    obtain ⟨hVS, -, hEL⟩ := picturePlaced_of_geometryWf hg hn
    rw [if_neg (by omega), if_pos (by omega)]

/-- Inside the frame the lines of vertical sync are those up to `V`. -/
theorem framePhase_eq_vsync_iff {s : State} {j : Nat} (hj : j < s.linesPerFrame.toNat) :
    framePhase s j = .vsync ↔ j ≤ s.vsyncEndLine.toNat := by
  unfold framePhase
  by_cases hV : j ≤ s.vsyncEndLine.toNat
  · simp [hV]
  · rw [if_neg (by omega)]
    split <;> simp [hV]

/-- The mode changes after line `V` and nowhere else. -/
theorem lineMode_succ (s : State) (m : SyncMode) (j : Nat) :
    lineMode s m (j + 1) = if j = s.vsyncEndLine.toNat then .h else lineMode s m j := by
  unfold lineMode
  by_cases hj : j + 1 ≤ s.vsyncEndLine.toNat
  · rw [if_pos hj, if_neg (by omega), if_pos (by omega)]
  · rw [if_neg hj]
    split_ifs
    · rfl
    · omega
    · rfl

/-! ### Where a state stands in a frame -/

/-- `t` is a running state of the session of `s`, and its next line has number `j`. -/
structure AtLine (s : State) (j : Nat) (t : State) : Prop where
  running : Running t
  cfg : t.cfg = s.cfg
  regs : configRegisters t = configRegisters s
  line : t.currentLine.toNat = j

theorem AtLine.refl {s : State} {j : Nat} (h : Running s) (hj : s.currentLine.toNat = j) : AtLine s j s :=
  ⟨h, rfl, rfl, hj⟩

theorem AtLine.next {s t u : State} {j i : Nat} (h : AtLine s j t) (ht : execTick t = .next u)
    (hi : u.currentLine.toNat = i) : AtLine s i u :=
  ⟨running_of_execTick h.running ht, (execTick_cfg ht).trans h.cfg, (execTick_configRegisters ht).trans h.regs, hi⟩

theorem AtLine.phase {s t : State} {j : Nat} (h : AtLine s j t) (hg : GeometryWf s) : t.phase = framePhase s j := by
  obtain ⟨⟨⟨-, -, -, -, -, hsess⟩, hs⟩, -, hregs, rfl⟩ := h
  have hgt := (geometryWf_congr hregs).mpr hg
  obtain ⟨-, -, -, hcourse⟩ := hsess hs
  rw [← framePhase_congr hregs]
  exact phase_eq_framePhase hgt (hcourse hgt)

/-- The end of a frame, where the next tick is its boundary (R152). -/
theorem AtLine.end_of_frame {s t : State} (h : AtLine s s.linesPerFrame.toNat t) (hg : GeometryWf s) :
    t.phase = .vsync ∧ t.currentLine = s.linesPerFrame :=
  ⟨(h.phase hg).trans (if_pos (.inr le_rfl)), BitVec.eq_of_toNat_eq h.line⟩

/-! ### Runs of lines -/

/-- What R151 says of a line record: line, phase at entry and mode. -/
def recordEntry (r : LineRecord) : Nat × Phase × SyncMode := (r.line.toNat, r.phase, r.mode)

/-- The entry of line `l` of a frame whose vertical sync has mode `m`: its mode is the one after its tick (R175). -/
def frameLine (s : State) (m : SyncMode) (l : Nat) : Nat × Phase × SyncMode := (l, framePhase s l, lineMode s m (l + 1))

/-- The `n` ticks from `t` run lines `a` to `a + n - 1` of a frame, one record each, and end in `u`. -/
structure RunsLines (s : State) (m : SyncMode) (a n : Nat) (t u : State) : Prop where
  ticks : runTicks n t = .next u
  atLine : AtLine s (a + n) u
  mode : u.syncMode = lineMode s m (a + n)
  records : ∃ rs, u.trace = t.trace ++ rs ∧ rs.map recordEntry = (List.range' a n).map (frameLine s m)

theorem runTicks_add (n k : Nat) (s : State) : runTicks (n + k) s = andThen (runTicks n s) (runTicks k) := by
  induction n generalizing s with
  | zero => simp
  | succ n ih =>
    rw [Nat.succ_add, runTicks, runTicks]
    cases execTick s with
    | next t => exact ih t
    | fault r => rfl
    | refused r => rfl

theorem RunsLines.trans {s t u v : State} {m : SyncMode} {a n k : Nat} (h : RunsLines s m a n t u)
    (h' : RunsLines s m (a + n) k u v) : RunsLines s m a (n + k) t v := by
  obtain ⟨rs, htrace, hrs⟩ := h.records
  obtain ⟨rs', htrace', hrs'⟩ := h'.records
  refine ⟨by rw [runTicks_add, h.ticks, andThen_next, h'.ticks], Nat.add_assoc a n k ▸ h'.atLine,
    Nat.add_assoc a n k ▸ h'.mode, rs ++ rs', by rw [htrace', htrace, List.append_assoc], ?_⟩
  rw [List.map_append, hrs, hrs', ← List.map_append, List.range'_append_1]

/-- One line inside the frame. -/
theorem AtLine.tick {s t : State} {j : Nat} {m : SyncMode} (h : AtLine s j t) (hg : GeometryWf s)
    (hm : t.syncMode = lineMode s m j) (hj : j < s.linesPerFrame.toNat) :
    ∃ u, RunsLines s m j 1 t u ∧ u.frameCount = t.frameCount := by
  have hs := h.running.2
  obtain ⟨-, -, -, -, -, hV, hL, -⟩ := (configRegisters_eq_iff s t).mp h.regs
  obtain ⟨u, ht⟩ := exists_execTick h.running
  have hphase := h.phase hg
  have hin : t.currentLine.toNat < t.linesPerFrame.toNat := by rwa [h.line, hL]
  obtain ⟨hline, hframe, hmode⟩ := execTick_within hs hin ht
  have hleave : t.phase = .vsync ∧ t.currentLine = t.vsyncEndLine ↔ j = s.vsyncEndLine.toNat := by
    rw [hphase, framePhase_eq_vsync_iff hj, ← BitVec.toNat_inj, h.line, hV]
    omega
  rw [if_congr hleave rfl hm, ← lineMode_succ] at hmode
  refine ⟨u, ⟨runTicks_succ 0 ht, h.next ht (hline.trans (by rw [h.line])), hmode, _, execTick_trace hs ht, ?_⟩,
    hframe⟩
  rw [if_neg fun hb => Nat.not_le.mpr hin hb.2]
  simp [recordEntry, frameLine, hphase, hmode, h.line]

/-- The first line of a frame (R152). -/
theorem AtLine.boundary {s t : State} (h : AtLine s s.linesPerFrame.toNat t) (hg : GeometryWf s) :
    ∃ u, RunsLines s .v 0 1 t u ∧ u.frameCount = (t.frameCount + 1) % 2 ^ s.cfg.frameW := by
  have hs := h.running.2
  have hV := hg.1.1
  obtain ⟨-, -, -, -, -, -, hL, -⟩ := (configRegisters_eq_iff s t).mp h.regs
  obtain ⟨u, ht⟩ := exists_execTick h.running
  obtain ⟨hphase, -⟩ := h.end_of_frame hg
  have hend : t.linesPerFrame.toNat ≤ t.currentLine.toNat := by rw [h.line, hL]
  obtain ⟨hline, hframe, hmode⟩ := execTick_atBoundary ⟨hs, hphase, hend⟩ ht
  have hfirst : lineMode s .v 1 = .v := if_pos hV
  refine ⟨u, ⟨runTicks_succ 0 ht, h.next ht (congrArg BitVec.toNat hline), hmode.trans hfirst.symm, _,
    execTick_trace hs ht, ?_⟩, h.cfg ▸ hframe⟩
  simp [recordEntry, frameLine, framePhase, hfirst, hmode, hphase, hend]

/-- Any number of lines inside the frame. -/
theorem AtLine.lines {s t : State} {a : Nat} {m : SyncMode} (h : AtLine s a t) (hg : GeometryWf s)
    (hm : t.syncMode = lineMode s m a) (n : Nat) (hn : a + n ≤ s.linesPerFrame.toNat) :
    ∃ u, RunsLines s m a n t u ∧ u.frameCount = t.frameCount := by
  induction n with
  | zero => exact ⟨t, ⟨rfl, h, hm, [], by simp⟩, rfl⟩
  | succ n ih =>
    obtain ⟨u, hu, hframe⟩ := ih (by omega)
    obtain ⟨v, hv, hframe'⟩ := hu.atLine.tick hg hu.mode (by omega)
    exact ⟨v, hu.trans hv, hframe'.trans hframe⟩

/-- The first `j` lines of a frame, from the end of the one before. -/
theorem AtLine.frame {s t : State} (h : AtLine s s.linesPerFrame.toNat t) (hg : GeometryWf s) {j : Nat} (h1 : 1 ≤ j)
    (hj : j ≤ s.linesPerFrame.toNat) :
    ∃ u, RunsLines s .v 0 j t u ∧ u.frameCount = (t.frameCount + 1) % 2 ^ s.cfg.frameW := by
  obtain ⟨u, hu, hframe⟩ := h.boundary hg
  obtain ⟨v, hv, hframe'⟩ := hu.atLine.lines hg hu.mode (j - 1) (by omega)
  refine ⟨v, ?_, hframe'.trans hframe⟩
  simpa [Nat.add_sub_cancel' h1] using hu.trans hv

/-- Whole frames, each `L` ticks (R152). -/
theorem AtLine.frames {s t : State} (h : AtLine s s.linesPerFrame.toNat t) (hg : GeometryWf s) (n : Nat) :
    ∃ u, runTicks (n * s.linesPerFrame.toNat) t = .next u ∧ AtLine s s.linesPerFrame.toNat u ∧
      u.frameCount = (t.frameCount + n) % 2 ^ s.cfg.frameW := by
  induction n with
  | zero =>
    have ⟨⟨⟨_, hf, _⟩, _⟩, hcfg, _, _⟩ := h
    exact ⟨t, by simp, h, (Nat.mod_eq_of_lt (hcfg ▸ hf)).symm⟩
  | succ n ih =>
    obtain ⟨u, hu, hat, hframe⟩ := ih
    have hL := hg.1.2
    obtain ⟨v, hv, hframe'⟩ := hat.frame hg (by omega) le_rfl
    refine ⟨v, by rw [Nat.succ_mul, runTicks_add, hu, andThen_next, hv.ticks], by simpa using hv.atLine, ?_⟩
    rw [hframe', hframe, Nat.mod_add_mod, Nat.add_assoc]

/-! ### The obligations -/

/-- The table of R151 for a placed picture. -/
theorem framePhase_of_picturePlaced {s : State} (hp : PicturePlaced s) {j : Nat} (hj : j ≤ s.linesPerFrame.toNat) :
    framePhase s j =
      if j ≤ s.vsyncEndLine.toNat then .vsync
      else if j ≤ s.activeRenderStartLine.toNat then .blank
      else if j + 1 ≤ s.activeRenderEndLine.toNat then .active
      else if j + 1 ≤ s.linesPerFrame.toNat then .blank else .vsync := by
  obtain ⟨hVS, hSE, hEL⟩ := hp
  unfold framePhase
  by_cases hV : j ≤ s.vsyncEndLine.toNat
  · rw [if_pos (.inl hV), if_pos hV]
  rw [if_neg hV]
  by_cases hL : s.linesPerFrame.toNat ≤ j
  · rw [if_pos (.inr hL), if_neg (by omega), if_neg (by omega), if_neg (by omega)]
  rw [if_neg (by omega)]
  by_cases hS : j ≤ s.activeRenderStartLine.toNat
  · rw [if_neg (by omega), if_pos hS]
  rw [if_neg hS, if_pos (Nat.succ_le_of_lt (Nat.not_le.mp hL))]
  exact if_congr (by omega) rfl rfl

/-- The last record of a run of lines from line 0. -/
theorem RunsLines.last_record {s t u : State} {m : SyncMode} {i : Nat} (h : RunsLines s m 0 (i + 1) t u) :
    ∃ r, u.trace.getLast? = some r ∧ recordEntry r = frameLine s m i := by
  obtain ⟨rs, htrace, hrs⟩ := h.records
  have hlast : rs.getLast?.map recordEntry = some (frameLine s m i) := by
    rw [← List.getLast?_map, hrs, List.range'_1_concat]
    simp
  obtain ⟨r, hr, hentry⟩ := Option.map_eq_some_iff.mp hlast
  exact ⟨r, by rw [htrace, List.getLast?_append, hr]; rfl, hentry⟩

/-- Settles O47: line `j` is found in the phase and mode of the table; the last record is that of line `j - 1`. -/
theorem courseOfAFrame : Obligations.CourseOfAFrame := by
  intro s j h hV hpic hp hL h1 hj
  have hg : GeometryWf s := ⟨hV, .inl hpic⟩
  obtain ⟨i, rfl⟩ := Nat.exists_eq_add_of_le' h1
  obtain ⟨t, ht, hframe⟩ := (AtLine.refl h (congrArg BitVec.toNat hL)).frame hg h1 hj
  have hat : AtLine s (i + 1) t := by simpa using ht.atLine
  have hmode : t.syncMode = lineMode s .v (i + 1) := by simpa using ht.mode
  obtain ⟨r, hr, hentry⟩ := ht.last_record
  simp only [recordEntry, frameLine, Prod.mk.injEq] at hentry
  obtain ⟨hrline, hrphase, hrmode⟩ := hentry
  refine ⟨t, ht.ticks, hat.line, hframe, ?_, hmode, r, hr, hrline, hrmode.trans hmode.symm, ?_⟩
  · rw [hat.phase hg, framePhase_of_picturePlaced hpic hj]
  · rw [hrphase, framePhase_of_picturePlaced hpic (Nat.le_of_succ_le hj), if_pos hj]
    simp only [Nat.add_le_add_iff_right]

/-- Settles O48: counted from the end of a frame the boundary is the first line; counted from line 0 it comes after the
lines 0 to `L - 1`. -/
theorem aFrameTakesLTicks : Obligations.AFrameTakesLTicks := by
  intro s m h hg hp
  refine ⟨fun hL => ?_, fun hL => ?_, fun h0 => ?_⟩
  · obtain ⟨t, ht, hat, hframe⟩ := (AtLine.refl h (congrArg BitVec.toNat hL)).frames hg m
    obtain ⟨hphase, hline⟩ := hat.end_of_frame hg
    exact ⟨t, ht, hphase, hline, hframe⟩
  · obtain ⟨t, ht, hframe⟩ := (AtLine.refl h (congrArg BitVec.toNat hL)).boundary hg
    exact ⟨t, ht.ticks, hframe⟩
  · have hmode : s.syncMode = lineMode s s.syncMode 0 := (if_pos (Nat.zero_le _)).symm
    obtain ⟨t, ht, hframe⟩ := (AtLine.refl h (congrArg BitVec.toNat h0)).lines hg hmode s.linesPerFrame.toNat
      (by simp)
    have hat : AtLine s s.linesPerFrame.toNat t := by simpa using ht.atLine
    obtain ⟨u, hu, hframe'⟩ := hat.boundary hg
    obtain ⟨hphase, hline⟩ := hat.end_of_frame hg
    refine ⟨t, u, ht.ticks, hphase, hline, hframe, ?_, by rw [hframe', hframe]⟩
    rw [runTicks_add, ht.ticks, andThen_next, hu.ticks]

/-- The lines of a frame: `V` in mode `m`, the others in mode `H` (R151). -/
theorem sum_lineMode (s : State) (m : SyncMode) (f : SyncMode → Nat) {n : Nat} (hV : s.vsyncEndLine.toNat ≤ n) :
    ((List.range' 0 n).map fun l => f (lineMode s m (l + 1))).sum =
      s.vsyncEndLine.toNat * f m + (n - s.vsyncEndLine.toNat) * f .h := by
  obtain ⟨k, rfl⟩ := Nat.exists_eq_add_of_le hV
  have hsplit : List.range' 0 (s.vsyncEndLine.toNat + k) =
      List.range' 0 s.vsyncEndLine.toNat ++ List.range' s.vsyncEndLine.toNat k := by
    simpa using (List.range'_append_1 (s := 0) (m := s.vsyncEndLine.toNat) (n := k)).symm
  have hvsync : ∀ l ∈ List.range' 0 s.vsyncEndLine.toNat, f (lineMode s m (l + 1)) = f m := fun l hl => by
    rw [lineMode, if_pos (by simpa using hl)]
  have hrest : ∀ l ∈ List.range' s.vsyncEndLine.toNat k, f (lineMode s m (l + 1)) = f .h := fun l hl => by
    have hVl := (List.mem_range'_1.mp hl).1
    rw [lineMode, if_neg (by omega)]
  rw [hsplit, List.map_append, List.map_congr_left hvsync, List.map_congr_left hrest]
  simp

/-- Settles O49: the records are those of lines 0 to `L - 1`, and the length of a line depends on its mode alone. -/
theorem aFrameTakesItsCycles : Obligations.AFrameTakesItsCycles := by
  intro s tv th h hg hp hL htv hth
  have hVL := hg.1.2
  obtain ⟨t, ht, -⟩ := (AtLine.refl h (congrArg BitVec.toNat hL)).frame hg (by omega) le_rfl
  obtain ⟨rs, htrace, hrs⟩ := ht.records
  refine ⟨t, rs, ht.ticks, htrace, by simpa using congrArg List.length hrs, ?_⟩
  subst htv hth
  calc (rs.map (recordLength s.cfg (profileOf s))).sum
      = ((rs.map recordEntry).map fun e => lineLengthOf s.cfg (profileOf s) e.2.2).sum := by rw [List.map_map]; rfl
    _ = ((List.range' 0 s.linesPerFrame.toNat).map fun l =>
          lineLengthOf s.cfg (profileOf s) (lineMode s .v (l + 1))).sum := by rw [hrs, List.map_map]; rfl
    _ = s.vsyncEndLine.toNat * lineLengthOf s.cfg (profileOf s) .v +
          (s.linesPerFrame.toNat - s.vsyncEndLine.toNat) * lineLengthOf s.cfg (profileOf s) .h :=
        sum_lineMode s .v _ (by omega)

end Sys2Proof.Machine
end

section
/-!
PROOF. The pin writes run alone and the renders (spec 42_render_and_pins.md R165 to R174): what a render writes, when, and
that no two renders differ in anything but the instants.
-/

namespace Sys2Proof.Machine

/-- Settles O31: each operation is one `pinWrite` at the current cycle. -/
theorem pinWritesSetOneLatch : Obligations.PinWritesSetOneLatch := fun _ => ⟨rfl, rfl, rfl, rfl, rfl⟩

/-! ### Instants of pixels -/

/-- The first pixel of a group is driven at the start of the group (U6). -/
@[simp] theorem subCycle_zero (c g : Nat) : subCycle c g 0 = 0 := rfl

/-- The instants within a group stay below its cost (U6). -/
theorem subCycle_lt {c : Nat} (hc : 1 ≤ c) (g i : Nat) : subCycle c g i < c := by
  induction i with
  | zero => exact hc
  | succ i ih => exact max_lt ih (Nat.mod_lt _ hc)

/-- In groups of one pixel every pixel starts its group (R165). -/
theorem pixelCycle_one (d c x : Nat) : pixelCycle d 1 c x = d + x * c := by
  rw [pixelCycle, Nat.mod_one, Nat.div_one, subCycle_zero, Nat.add_zero]

/-- Settles O30: the later instants of a group are running maxima of values below the cost. -/
theorem pixelInstants : Obligations.PixelInstants :=
  ⟨pixelCycle_one, subCycle_zero, fun _ _ _ => Nat.le_max_left _ _, fun _ g i hc => subCycle_lt hc g i⟩

/-- Every pixel of a line is driven before the line's final write (R165). -/
theorem pixelCycle_lt_pixelsEnd {g c w x : Nat} (d : Nat) (hg : 1 ≤ g) (hc : 1 ≤ c) (hx : x < w) :
    pixelCycle d g c x < pixelsEnd d g c w := by
  have hgroup : x / g < ceilDiv w g := by
    rw [← Nat.not_le, ceilDiv_le_iff hg, Nat.not_le]
    exact (Nat.mul_div_le x g).trans_lt hx
  calc pixelCycle d g c x
      < d + x / g * c + c := Nat.add_lt_add_left (subCycle_lt hc g _) _
    _ = d + (x / g + 1) * c := by rw [Nat.succ_mul, Nat.add_assoc]
    _ ≤ pixelsEnd d g c w := Nat.add_le_add_left (Nat.mul_le_mul_right c hgroup) d

/-! ### The timed writes of a render -/

/-- A timed write of a render is one of a pixel, or the final 0 (R165). -/
theorem mem_renderWrites {d g c : Nat} {px : List Level} {w : PinWrite} :
    w ∈ renderWrites d g c px ↔
      (∃ (x : Nat) (h : x < px.length), w = ⟨.video, px[x], pixelCycle d g c x⟩) ∨
        w = ⟨.video, false, pixelsEnd d g c px.length⟩ := by
  simp only [renderWrites, List.mem_append, List.mem_mapIdx, List.mem_singleton, eq_comm (b := w)]
  rfl

/-- A render drives `VIDEO` and no other pin (R165). -/
theorem pin_of_mem_renderWrites {d g c : Nat} {px : List Level} {w : PinWrite} (h : w ∈ renderWrites d g c px) :
    w.pin = .video := by
  rcases mem_renderWrites.mp h with ⟨x, hx, rfl⟩ | rfl <;> rfl

/-- A render writes inside the window of its pixels, and its last write, at the end of the window, is a 0 (R172). -/
theorem cycle_of_mem_renderWrites {d g c : Nat} {px : List Level} {w : PinWrite} (hg : 1 ≤ g) (hc : 1 ≤ c)
    (h : w ∈ renderWrites d g c px) :
    d ≤ w.cycle ∧ w.cycle ≤ pixelsEnd d g c px.length ∧
      (w.level = true → w.cycle < pixelsEnd d g c px.length) := by
  rcases mem_renderWrites.mp h with ⟨x, hx, rfl⟩ | rfl
  · have hlt := pixelCycle_lt_pixelsEnd d hg hc hx
    exact ⟨(Nat.le_add_right _ _).trans (Nat.le_add_right _ _), hlt.le, fun _ => hlt⟩
  · exact ⟨Nat.le_add_right _ _, le_rfl, fun h => nomatch h⟩

/-- The last write of a render is the final 0 (R165). -/
theorem getLast?_renderWrites (d g c : Nat) (px : List Level) :
    (renderWrites d g c px).getLast? = some ⟨.video, false, pixelsEnd d g c px.length⟩ := List.getLast?_concat

/-- The pins and levels a render writes, in order, depend on its pixels alone (R165). -/
theorem levels_renderWrites (d g c : Nat) (px : List Level) :
    (renderWrites d g c px).map (fun w => (w.pin, w.level)) = (px ++ [false]).map fun b => (Pin.video, b) := by
  rw [renderWrites, List.map_append, List.map_append]
  congr 1
  exact List.ext_getElem (by simp) (by simp)

/-! ### The renders -/

/-- The timed writes a render adds to the line's (R165). -/
theorem renderRow_pinWrites (c : Nat) (s : State) :
    (renderRow c s).pinWrites = s.pinWrites ++
      renderWrites s.outputStartDelayCycles.toNat s.cfg.groupSize c (rowPixels s) := by
  rw [renderRow_eq, renderWrites_eq, List.append_assoc]

/-- Each render operation runs the entry of its index (R82, R84). -/
theorem exec_render {i : Instr} {sel : Nat}
    (hi : (i, sel) ∈ [(Instr.render3c, 0), (Instr.render4c, 1), (Instr.render5c, 2), (Instr.render6c, 3)] ∨
      ∃ n : BitVec 4, i = .renderAt n ∧ sel = n.toNat) (s : State) :
    exec i s = renderEntry sel s := by
  rcases hi with hmem | ⟨n, rfl, rfl⟩
  · simp only [List.mem_cons, Prod.mk.injEq, List.not_mem_nil, or_false] at hmem
    rcases hmem with ⟨rfl, rfl⟩ | ⟨rfl, rfl⟩ | ⟨rfl, rfl⟩ | ⟨rfl, rfl⟩ <;> rfl
  · rfl

/-- Settles O27: an index that names an entry is below the length of the table, so the render of its row completes. -/
theorem rendersEmitTheRow : Obligations.RendersEmitTheRow := by
  intro s i sel c hi hc
  obtain ⟨hsel, -⟩ := List.getElem?_eq_some_iff.mp hc
  have hrow : exec i s = .next (renderRow c s) := by
    rw [exec_render hi, renderEntry_valid sel s hsel, costOf_eq hc]
  exact ⟨_, hrow, rowPixels_eq_shown s, renderRow_pinWrites c s, by rw [renderRow_eq], by rw [renderRow_eq]⟩

/-- A render operation that completes renders the row, at some cost (R165). -/
theorem exists_renderRow_of_exec {i : Instr} {s t : State}
    (hi : i ∈ [Instr.render3c, Instr.render4c, Instr.render5c, Instr.render6c] ∨ ∃ n, i = .renderAt n)
    (ht : exec i s = .next t) : ∃ c, t = renderRow c s := by
  obtain ⟨sel, hsel⟩ : ∃ sel, exec i s = renderEntry sel s := by
    rcases hi with hmem | ⟨n, rfl⟩
    · simp only [List.mem_cons, List.not_mem_nil, or_false] at hmem
      rcases hmem with rfl | rfl | rfl | rfl <;> exact ⟨_, rfl⟩
    · exact ⟨_, rfl⟩
  rw [hsel] at ht
  exact ⟨_, (renderEntry_eq_next ht).2⟩

/-- Settles O29: both renders are of the same row, and the cost reaches only the instants. -/
theorem rendersInterchangeable : Obligations.RendersInterchangeable := by
  intro s t u i j hi hj ht hu
  obtain ⟨c, rfl⟩ := exists_renderRow_of_exec hi ht
  obtain ⟨c', rfl⟩ := exists_renderRow_of_exec hj hu
  refine ⟨rfl, ?_, ?_⟩
  · simp only [renderRow_pinWrites, List.map_append, levels_renderWrites]
  · rw [renderRow_eq, renderRow_eq]

end Sys2Proof.Machine
end

section
/-!
PROOF. The timed writes and the record of a line (spec 42_render_and_pins.md R171 to R175): between the two edges of the
sync pulse stand the writes of the line's handler, and from them follow what each pin does on the line.
-/

namespace Sys2Proof.Machine

/-! ### What a handler writes -/

/-- The timed writes of the handler of a phase (R135, R140, R145): those of the row on an active line, and the stop of the
tone where a frame boundary ends it. -/
def handlerWrites (s : State) : Phase → List PinWrite
  | .vsync =>
    if s.linesPerFrame.toNat ≤ s.currentLine.toNat ∧ toneStops s.toneCountdown then
      [⟨.tone, false, Config.toneLoCycle s.freeIndex % lineLengthOf s.cfg (profileOf s) .v⟩]
    else []
  | .blank => []
  | .active => renderWrites s.outputStartDelayCycles.toNat s.cfg.groupSize (liveCost s) (rowPixels s)

theorem handlerWrites_tickEntry (s : State) (p : Phase) : handlerWrites (tickEntry s) p = handlerWrites s p := by
  cases p <;> rfl

/-- A handler writes `VIDEO` on an active line, and 0 to `TONE`; never `SYNC` (R171 to R174). -/
theorem pin_of_mem_handlerWrites {s : State} {p : Phase} {w : PinWrite} (h : w ∈ handlerWrites s p) :
    (p = .active ∧ w.pin = .video) ∨ (w.pin = .tone ∧ w.level = false) := by
  cases p with
  | vsync =>
    rw [handlerWrites] at h
    split at h
    · obtain rfl := List.mem_singleton.mp h
      exact .inr ⟨rfl, rfl⟩
    · cases h
  | blank => cases h
  | active => exact .inl ⟨rfl, pin_of_mem_renderWrites h⟩

/-- What a handler does to the latches of `VIDEO` and `TONE` and to the list of timed writes (R172, R174). -/
theorem runHandler_pins {p : Phase} {s t : State} (ht : runHandler p s = .next t) :
    t.pinWrites = s.pinWrites ++ handlerWrites s p ∧
      t.outVideo = (if p = .active then false else s.outVideo) ∧ (t.outTone = true → s.outTone = true) := by
  cases p with
  | vsync =>
    rw [runHandler] at ht
    by_cases hb : s.linesPerFrame.toNat ≤ s.currentLine.toNat
    · rw [execVsyncLine_boundary s hb] at ht
      cases ht
      by_cases hstop : toneStops s.toneCountdown = true <;> simp [handlerWrites, hb, hstop]
    by_cases hv : s.currentLine.toNat = s.vsyncEndLine.toNat
    · rw [execVsyncLine_leave s (Nat.not_le.mp hb) hv] at ht; cases ht; simp [handlerWrites, hb]
    · rw [execVsyncLine_stay s (Nat.not_le.mp hb) hv] at ht; cases ht; simp [handlerWrites, hb]
  | blank =>
    rw [runHandler] at ht
    by_cases hl : s.currentLine.toNat = s.activeRenderStartLine.toNat
    · rw [execBlankLine_arm s hl] at ht; cases ht; simp [handlerWrites]
    by_cases hw : s.currentLine.toNat + 1 = s.linesPerFrame.toNat
    · rw [execBlankLine_wrap s hl hw] at ht; cases ht; simp [handlerWrites]
    · rw [execBlankLine_stay s hl hw] at ht; cases ht; simp [handlerWrites]
  | active =>
    rw [runHandler] at ht
    rw [execActiveLine_eq s (selValid_of_execActiveLine ht)] at ht
    cases ht
    simp [handlerWrites]

/-! ### What a tick writes -/

/-- A tick of a started block completes but on an active line with an index past the table (R86, R130). -/
theorem execTick_total {s : State} (hs : s.started = true) (hsel : s.phase = .active → SelValid s) :
    ∃ t, execTick s = .next t := by
  obtain ⟨u, -, ht⟩ := execTick_completes s hs hsel
  exact ⟨_, ht⟩

/-- The timed writes of a line: the rise of `SYNC`, those of the handler, and the fall of `SYNC` (R171). -/
theorem execTick_pinWrites {s t : State} (hs : s.started = true) (ht : execTick s = .next t) :
    t.pinWrites = ⟨.sync, true, 0⟩ :: (handlerWrites s s.phase ++ [⟨.sync, false, syncWidth t⟩]) := by
  obtain ⟨u, hu, rfl⟩ := execTick_cases hs ht
  have hsync : syncWidth (tickReturn s.phase u) = syncWidth u := by rw [tickReturn_eq]; rfl
  obtain ⟨hwrites, -⟩ := runHandler_pins hu
  rw [tickReturn_pinWrites, hsync, hwrites, handlerWrites_tickEntry, tickEntry_pinWrites]
  rfl

/-- A line outside the picture leaves `VIDEO` as it was, an active line leaves it at 0 (R172). -/
theorem execTick_outVideo {s t : State} (hs : s.started = true) (ht : execTick s = .next t) :
    t.outVideo = if s.phase = .active then false else s.outVideo := by
  obtain ⟨u, hu, rfl⟩ := execTick_cases hs ht
  obtain ⟨-, hvideo, -⟩ := runHandler_pins hu
  rw [tickReturn_outVideo, hvideo, tickEntry_outVideo]

/-- `SYNC` is free from the line after a late pulse on (R254, log 10). -/
theorem execTick_syncFree {s t : State} (hs : s.started = true) (ht : execTick s = .next t) :
    t.syncFree = (s.syncFree || s.syncLate) := by
  obtain ⟨u, hu, rfl⟩ := execTick_cases hs ht
  rw [tickReturn_syncFree, runHandler_frame hu]
  rfl

/-- The `SYNC` latch at the end of a line (R173, log 10). -/
theorem execTick_outSync {s t : State} (hs : s.started = true) (ht : execTick s = .next t) :
    t.outSync = if t.syncFree then Config.lateSync t.freeIndex else !pulseFits t := by
  obtain ⟨u, -, rfl⟩ := execTick_cases hs ht
  have hfits : pulseFits (tickReturn s.phase u) = pulseFits u := by rw [tickReturn_eq]; rfl
  rw [tickReturn_outSync, tickReturn_syncFree, tickReturn_freeIndex, hfits]

/-- The pulse of a line is as wide as the profile says for its mode (R171). -/
theorem syncWidth_of_execTick {s t : State} (hs : s.started = true) (ht : execTick s = .next t) :
    syncWidth t = syncWidthOf (profileOf s) t.syncMode := by
  obtain ⟨u, hu, rfl⟩ := execTick_cases hs ht
  rw [tickReturn_eq, runHandler_frame hu]
  rfl

/-- The timed writes of `SYNC` on a line are the two edges of one pulse (R171). -/
theorem execTick_syncWrites {s t : State} (hs : s.started = true) (ht : execTick s = .next t) :
    t.pinWrites.filter (fun w => w.pin = .sync) =
      [⟨.sync, true, 0⟩, ⟨.sync, false, syncWidthOf (profileOf s) t.syncMode⟩] := by
  have hnone : (handlerWrites s s.phase).filter (fun w => w.pin = .sync) = [] :=
    List.filter_eq_nil_iff.mpr fun w hw => by
      rcases pin_of_mem_handlerWrites hw with ⟨-, hpin⟩ | ⟨hpin, -⟩ <;> simp [hpin]
  rw [execTick_pinWrites hs ht, syncWidth_of_execTick hs ht]
  simp [hnone]

/-- The timed writes of `VIDEO` on a line are those of its render, if it has one (R172). -/
theorem execTick_videoWrites {s t : State} (hs : s.started = true) (ht : execTick s = .next t) :
    t.pinWrites.filter (fun w => w.pin = .video) =
      if s.phase = .active then
        renderWrites s.outputStartDelayCycles.toNat s.cfg.groupSize (liveCost s) (rowPixels s)
      else [] := by
  rw [execTick_pinWrites hs ht]
  by_cases hp : s.phase = .active
  · have hall : ∀ w ∈ renderWrites s.outputStartDelayCycles.toNat s.cfg.groupSize (liveCost s) (rowPixels s),
        w.pin = .video := fun w hw => pin_of_mem_renderWrites hw
    simpa [hp, handlerWrites] using hall
  · have hnone : (handlerWrites s s.phase).filter (fun w => w.pin = .video) = [] :=
      List.filter_eq_nil_iff.mpr fun w hw => by
        rcases pin_of_mem_handlerWrites hw with ⟨hact, -⟩ | ⟨hpin, -⟩
        · exact absurd hact hp
        · simp [hpin]
    simp [hp, hnone]

/-! ### The record of a line, its pulse and its window -/

/-- Settles O21: the record of a tick, its pixels in closed form. -/
theorem oneLineRecordPerTick : Obligations.OneLineRecordPerTick := by
  intro s c hs hc
  obtain ⟨hsel, -⟩ := List.getElem?_eq_some_iff.mp hc
  obtain ⟨t, ht⟩ := execTick_total hs fun _ => hsel
  refine ⟨t, _, ht, execTick_trace hs ht, rfl, rfl, rfl, fun hp => if_neg hp, fun hp => ?_, costOf_eq hc⟩
  simp only [hp, if_true]
  exact ⟨rowPixels_eq_shown s, rowPixels_length s⟩

/-- Settles O22: the handler writes no `SYNC`, so a line has the two edges of its pulse; a pulse that fits has fallen when
the line ends. -/
theorem oneSyncPulsePerLine : Obligations.OneSyncPulsePerLine := by
  intro s hs hsel
  obtain ⟨t, ht⟩ := execTick_total hs hsel
  refine ⟨t, ht, ?_, fun hfree hlate hfits => ?_⟩
  · rw [execTick_syncWrites hs ht]
    cases t.syncMode <;> rfl
  · have hpulse : pulseFits t = true := decide_eq_true hfits
    rw [execTick_outSync hs ht, execTick_syncFree hs ht, hfree, hlate, hpulse]
    rfl

/-- Settles O23: the `VIDEO` writes of a line are those of its render, all of them inside the window. -/
theorem videoOnlyInsideTheWindow : Obligations.VideoOnlyInsideTheWindow := by
  intro s c stop hs ⟨_, _, _, hcosts, hgroup, _⟩ hc hstop
  obtain ⟨hsel, -⟩ := List.getElem?_eq_some_iff.mp hc
  have hcost : 1 ≤ c := hcosts c (List.mem_of_getElem? hc)
  have hlive : liveCost s = c := costOf_eq hc
  have hend : pixelsEnd s.outputStartDelayCycles.toNat s.cfg.groupSize c (rowPixels s).length = stop := by
    rw [hstop, rowPixels_length]
    rfl
  obtain ⟨t, ht⟩ := execTick_total hs fun _ => hsel
  have hvideo := execTick_videoWrites hs ht
  refine ⟨t, ht, fun hp w hw hpin => ?_, fun hp => ?_, fun hp => ⟨fun w hw hpin => ?_, ?_, ?_⟩⟩
  · rw [if_neg hp] at hvideo
    exact List.filter_eq_nil_iff.mp hvideo w hw (decide_eq_true hpin)
  · rw [execTick_outVideo hs ht, if_neg hp]
  · have hmem : w ∈ t.pinWrites.filter (fun w => w.pin = .video) := List.mem_filter.mpr ⟨hw, decide_eq_true hpin⟩
    rw [hvideo, if_pos hp, hlive] at hmem
    exact hend ▸ cycle_of_mem_renderWrites hgroup hcost hmem
  · rw [hvideo, if_pos hp, getLast?_renderWrites, hlive, hend]
  · rw [execTick_outVideo hs ht, if_pos hp]

end Sys2Proof.Machine
end

section
/-!
PROOF. The block never asserts `TONE` (spec 42_render_and_pins.md R174): no meaning raises its latch or issues a write of
1 to it, so no operation does.
-/

namespace Sys2Proof.Machine

/-- From `s` to `t` the `TONE` latch has not risen and no write of 1 to `TONE` has been issued (R174). -/
def ToneNotRaised (s t : State) : Prop :=
  (t.outTone = true → s.outTone = true) ∧ ∀ w ∈ t.pinWrites, w.pin = .tone → w.level = true → w ∈ s.pinWrites

/-- Timed writes none of which raises `TONE`, added to those of the line (R174). -/
theorem toneNotRaised_of_append {s t : State} {ws : List PinWrite} (htone : t.outTone = true → s.outTone = true)
    (hws : t.pinWrites = s.pinWrites ++ ws) (hlow : ∀ w ∈ ws, w.pin = .tone → w.level = false) :
    ToneNotRaised s t := by
  refine ⟨htone, fun w hw hpin hlevel => ?_⟩
  rw [hws] at hw
  rcases List.mem_append.mp hw with hold | hnew
  · exact hold
  · simp [hlow w hnew hpin] at hlevel

/-- An operation with no timed write (log 23). -/
theorem toneNotRaised_of_pinWrites_eq {s t : State} (htone : t.outTone = true → s.outTone = true)
    (hws : t.pinWrites = s.pinWrites) : ToneNotRaised s t :=
  toneNotRaised_of_append (ws := []) htone (by rw [hws, List.append_nil]) fun _ hw => nomatch hw

theorem execBegin_toneNotRaised {std : Standard} {w h fb : Word} {s t : State}
    (ht : execBegin std w h fb s = .next t) : ToneNotRaised s t := by
  obtain ⟨-, -, -, rfl⟩ := execBegin_eq_next ht
  exact toneNotRaised_of_pinWrites_eq (fun h => nomatch h) rfl

theorem execSetTone_toneNotRaised {n : Int} {s t : State} (ht : execSetTone n s = .next t) : ToneNotRaised s t := by
  obtain ⟨-, rfl⟩ := execSetTone_eq_next ht
  refine toneNotRaised_of_pinWrites_eq (fun h => ?_) rfl
  by_cases hn : toneEnableOf n = true
  · simpa [hn] using h
  · simp [hn] at h

theorem renderEntry_toneNotRaised {sel : Nat} {s t : State} (ht : renderEntry sel s = .next t) :
    ToneNotRaised s t := by
  obtain ⟨-, rfl⟩ := renderEntry_eq_next ht
  refine toneNotRaised_of_append (fun h => ?_) (renderRow_pinWrites _ s) fun w hw hpin => ?_
  · rwa [renderRow_eq] at h
  · simp [pin_of_mem_renderWrites hw] at hpin

/-- A write of a handler to `TONE` is a 0 (R174). -/
theorem level_of_mem_handlerWrites {s : State} {p : Phase} {w : PinWrite} (h : w ∈ handlerWrites s p)
    (hpin : w.pin = .tone) : w.level = false := by
  rcases pin_of_mem_handlerWrites h with ⟨-, hvideo⟩ | ⟨-, hlevel⟩
  · simp [hvideo] at hpin
  · exact hlevel

theorem runHandler_toneNotRaised {p : Phase} {s t : State} (ht : runHandler p s = .next t) : ToneNotRaised s t := by
  obtain ⟨hwrites, -, htone⟩ := runHandler_pins ht
  exact toneNotRaised_of_append htone hwrites fun w hw => level_of_mem_handlerWrites hw

/-- A tick begins the list of its line afresh, and a write to `TONE` in it is the handler's (R174, log 24). -/
theorem execTick_toneNotRaised {s t : State} (ht : execTick s = .next t) : ToneNotRaised s t := by
  cases hs : s.started with
  | false =>
    rw [execTick_stopped s hs] at ht
    cases ht
    exact toneNotRaised_of_pinWrites_eq id rfl
  | true =>
    refine ⟨fun h => ?_, fun w hw hpin hlevel => ?_⟩
    · obtain ⟨u, hu, rfl⟩ := execTick_cases hs ht
      obtain ⟨-, -, htone⟩ := runHandler_pins hu
      exact htone (by rwa [tickReturn_outTone] at h)
    · rw [execTick_pinWrites hs ht, List.mem_cons, List.mem_append, List.mem_singleton] at hw
      rcases hw with rfl | hw | rfl
      · cases hpin
      · simp [level_of_mem_handlerWrites hw hpin] at hlevel
      · cases hpin

/-- A pin write that does not raise `TONE` (R170, R174). -/
theorem next_pinWrite_toneNotRaised {w : PinWrite} {s t : State} (hw : w.pin = .tone → w.level = false)
    (ht : (.next (pinWrite w s) : Result) = .next t) : ToneNotRaised s t := by
  cases ht
  refine toneNotRaised_of_append (fun h => ?_) (pinWrite_pinWrites w s) (by simpa using hw)
  by_cases hpin : w.pin = .tone
  · simp [hpin, hw hpin] at h
  · simpa [hpin] using h

/-- Settles O36: each operation is one of the meanings above, and none of them raises `TONE`. -/
theorem blockNeverAssertsTone : Obligations.BlockNeverAssertsTone := by
  intro s t i ht
  cases i with
  | beginCmd => exact execBegin_toneNotRaised ht
  | tick => exact execTick_toneNotRaised ht
  | setTone => exact execSetTone_toneNotRaised ht
  | fbw =>
    cases ht
    exact toneNotRaised_of_pinWrites_eq id rfl
  | vsyncLine => exact runHandler_toneNotRaised (p := .vsync) ht
  | blankLine => exact runHandler_toneNotRaised (p := .blank) ht
  | activeLine => exact runHandler_toneNotRaised (p := .active) ht
  | render3c | render4c | render5c | render6c | renderAt => exact renderEntry_toneNotRaised ht
  | vidLo | vidHi | syncLo | syncHi => exact next_pinWrite_toneNotRaised (by simp) ht
  | toneLo => exact next_pinWrite_toneNotRaised (fun _ => rfl) ht

end Sys2Proof.Machine
end

section
/-!
PROOF. The waveform of a line for groups of one pixel (spec 42_render_and_pins.md R176): the levels its timed writes give
to `SYNC` and `VIDEO` at each cycle.
-/

namespace Sys2Proof.Machine

/-! ### Levels from timed writes -/

/-- Later writes start from the level the earlier ones leave (R170). -/
theorem levelAt_append (pin : Pin) (init : Level) (ws vs : List PinWrite) (t : Nat) :
    levelAt pin init (ws ++ vs) t = levelAt pin (levelAt pin init ws t) vs t := List.foldl_append

/-- A write to the pin sets its level from the write's cycle on (R170). -/
theorem levelAt_write (pin : Pin) (init b : Level) (cyc t : Nat) :
    levelAt pin init [⟨pin, b, cyc⟩] t = if cyc ≤ t then b else init := by
  simp [levelAt]

/-- The level of a pin depends on the writes to it alone (R170). -/
theorem levelAt_filter (pin : Pin) (init : Level) (ws : List PinWrite) (t : Nat) :
    levelAt pin init (ws.filter fun w => w.pin = pin) t = levelAt pin init ws t := by
  rw [levelAt, List.foldl_filter, levelAt]
  congr 1
  funext l w
  by_cases hpin : w.pin = pin <;> simp [hpin]

/-! ### The waveform of a render -/

/-- The timed writes of pixels in groups of one: pixel `x` at cycle `d + x * c` (R165). -/
def pixelWrites (d c : Nat) (px : List Level) : List PinWrite := px.mapIdx fun x b => ⟨.video, b, d + x * c⟩

theorem renderWrites_one (d c : Nat) (px : List Level) :
    renderWrites d 1 c px = pixelWrites d c px ++ [⟨.video, false, d + px.length * c⟩] := by
  simp [renderWrites, pixelWrites, Nat.mod_one]

/-- Before the end of its pixels a line shows the pixel whose cycles have come, once the first has (R176). -/
theorem levelAt_pixelWrites {d c t : Nat} {px : List Level} (ht : t < d + px.length * c) :
    levelAt .video false (pixelWrites d c px) t = if d ≤ t then px.getD ((t - d) / c) false else false := by
  induction px using List.reverseRecOn with
  | nil =>
    have hbefore : ¬ d ≤ t := by simpa using ht
    rw [if_neg hbefore]
    rfl
  | append_singleton px b ih =>
    rw [List.length_append, List.length_singleton, Nat.succ_mul] at ht
    rw [pixelWrites, List.mapIdx_concat, ← pixelWrites, levelAt_append, levelAt_write]
    by_cases hlast : d + px.length * c ≤ t
    · have hindex : (t - d) / c = px.length := Nat.div_eq_of_lt_le (by omega) (by rw [Nat.succ_mul]; omega)
      have hstart : d ≤ t := by omega
      simp [hlast, hstart, hindex]
    · rw [if_neg hlast, ih (Nat.not_le.mp hlast)]
      by_cases hstart : d ≤ t
      · have hindex : (t - d) / c < px.length := Nat.div_lt_of_lt_mul (by rw [Nat.mul_comm]; omega)
        rw [if_pos hstart, if_pos hstart, List.getD_append _ _ _ _ hindex]
      · rw [if_neg hstart, if_neg hstart]

/-- The levels of `VIDEO` on a line with a render: the pixels inside their window, 0 outside it (R176). -/
theorem levelAt_renderWrites_one (d c t : Nat) (px : List Level) :
    levelAt .video false (renderWrites d 1 c px) t =
      if d ≤ t ∧ t < d + px.length * c then px.getD ((t - d) / c) false else false := by
  rw [renderWrites_one, levelAt_append, levelAt_write]
  by_cases hend : d + px.length * c ≤ t
  · rw [if_pos hend, if_neg fun h => Nat.not_lt.mpr hend h.2]
  · have hin := Nat.not_le.mp hend
    simp [hend, hin, levelAt_pixelWrites hin]

/-! ### The waveform of a line -/

/-- The level of `SYNC` on a line with no collision is that of its pulse (R171, R176). -/
theorem syncPin_of_execTick {s t : State} (hs : s.started = true) (ht : execTick s = .next t)
    (hfree : t.syncFree = false) (cyc : Nat) :
    syncPin t cyc = decide (cyc < syncWidthOf (profileOf s) t.syncMode) := by
  rw [syncPin_settled t cyc hfree, ← levelAt_filter, execTick_syncWrites hs ht]
  rcases Nat.lt_or_ge cyc (syncWidthOf (profileOf s) t.syncMode) with hpulse | hpulse <;> simp [levelAt, hpulse]

/-- Settles O25: `SYNC` is the pulse of the line's mode and `VIDEO` the pixels of its render, if it has one; both are read
off the writes to the pin alone. -/
theorem waveformIsTheRecords : Obligations.WaveformIsTheRecords := by
  intro s hs _ hsel hgroup hvideo
  obtain ⟨t, ht⟩ := execTick_total hs fun _ => hsel
  refine ⟨t, _, ht, execTick_trace hs ht, fun hfree hlate cyc => ?_, fun cyc => ?_⟩
  · have hsettled : t.syncFree = false := by rw [execTick_syncFree hs ht, hfree, hlate]; rfl
    rw [syncPin_of_execTick hs ht hsettled]
    cases t.syncMode <;> rfl
  · rw [← levelAt_filter, execTick_videoWrites hs ht, hgroup, hvideo]
    by_cases hp : s.phase = .active
    · simp only [hp, if_true, true_and]
      rw [levelAt_renderWrites_one, rowPixels_length]
    · simp only [hp, if_false, false_and]
      rfl

end Sys2Proof.Machine
end

section
/-!
PROOF. What `SET_TONE` and a frame boundary do to the tone, and that a stopped tone stays silent (spec
43_frame_and_tone.md R190 to R192, R195).
-/

namespace Sys2Proof.Machine

/-! ### The tone at a frame boundary -/

/-- What the block holds of the tone (R22, R23, R25). -/
structure Tone where
  countdown : Int
  enable : Bool
  latch : Level

/-- The tone as a state holds it. -/
def toneOf (s : State) : Tone := ⟨s.toneCountdown, s.toneEnable, s.outTone⟩

theorem toneOf_eq_iff {s : State} {n : Int} {e : Bool} {l : Level} :
    toneOf s = ⟨n, e, l⟩ ↔ s.toneCountdown = n ∧ s.toneEnable = e ∧ s.outTone = l := by
  rw [toneOf, Tone.mk.injEq]

/-- The tone a boundary leaves (R190). -/
def Tone.atBoundary (x : Tone) : Tone where
  countdown := toneCountdownAfter x.countdown
  enable := if toneStops x.countdown then false else x.enable
  latch := if toneStops x.countdown then false else x.latch

/-- A boundary leaves an indefinite tone alone (R191). -/
theorem Tone.atBoundary_of_neg {n : Int} (e : Bool) (l : Level) (h : n < 0) :
    Tone.atBoundary ⟨n, e, l⟩ = ⟨n, e, l⟩ := by
  have hstop : ¬ toneStops n = true := by rw [toneStops_iff]; omega
  simp [atBoundary, hstop, toneCountdownAfter_nonpos h.le]

/-- A boundary that finds more than 1 counts down (R191). -/
theorem Tone.atBoundary_of_one_lt {n : Int} (e : Bool) (l : Level) (h : 1 < n) :
    Tone.atBoundary ⟨n, e, l⟩ = ⟨n - 1, e, l⟩ := by
  have hstop : ¬ toneStops n = true := by rw [toneStops_iff]; omega
  have hpos : 0 < n := by omega
  simp [atBoundary, hstop, toneCountdownAfter_pos hpos]

/-- A boundary that finds 1 or 0 stops the tone (R191). -/
theorem Tone.atBoundary_of_stops {n : Int} (e : Bool) (l : Level) (h : n = 1 ∨ n = 0) :
    Tone.atBoundary ⟨n, e, l⟩ = ⟨0, false, false⟩ := by
  rcases h with rfl | rfl <;> rfl

/-- The branch of R135 with the boundary's actions is the only part of a handler that touches the tone (R190). -/
theorem runHandler_tone {p : Phase} {s t : State} (ht : runHandler p s = .next t) :
    toneOf t =
      if p = .vsync ∧ s.linesPerFrame.toNat ≤ s.currentLine.toNat then (toneOf s).atBoundary else toneOf s := by
  cases p with
  | vsync =>
    rw [runHandler] at ht
    by_cases hb : s.linesPerFrame.toNat ≤ s.currentLine.toNat
    · rw [if_pos ⟨rfl, hb⟩]
      rw [execVsyncLine_boundary s hb] at ht
      cases ht
      rfl
    rw [if_neg fun h => hb h.2]
    by_cases hv : s.currentLine.toNat = s.vsyncEndLine.toNat
    · rw [execVsyncLine_leave s (Nat.not_le.mp hb) hv] at ht; cases ht; rfl
    · rw [execVsyncLine_stay s (Nat.not_le.mp hb) hv] at ht; cases ht; rfl
  | blank =>
    rw [runHandler] at ht
    rw [if_neg (by simp : ¬ (Phase.blank = .vsync ∧ _))]
    by_cases hl : s.currentLine.toNat = s.activeRenderStartLine.toNat
    · rw [execBlankLine_arm s hl] at ht; cases ht; rfl
    by_cases hw : s.currentLine.toNat + 1 = s.linesPerFrame.toNat
    · rw [execBlankLine_wrap s hl hw] at ht; cases ht; rfl
    · rw [execBlankLine_stay s hl hw] at ht; cases ht; rfl
  | active =>
    rw [runHandler] at ht
    rw [if_neg (by simp : ¬ (Phase.active = .vsync ∧ _))]
    rw [execActiveLine_eq s (selValid_of_execActiveLine ht)] at ht
    cases ht
    rfl

/-- A tick touches the tone at a frame boundary and nowhere else (R190). -/
theorem execTick_tone {s t : State} (hs : s.started = true) (ht : execTick s = .next t) :
    toneOf t = if AtBoundary s then (toneOf s).atBoundary else toneOf s := by
  obtain ⟨u, hu, rfl⟩ := execTick_cases hs ht
  calc toneOf (tickReturn s.phase u) = toneOf u := by simp [toneOf]
    _ = if AtBoundary s then (toneOf s).atBoundary else toneOf s := by
      rw [runHandler_tone hu]
      exact if_congr (by simp [AtBoundary, hs]) rfl rfl

/-- The timed writes of `TONE` on the line of a frame boundary: the one that stops the tone, if it does (R174, R190). -/
theorem execTick_toneWrites {s t : State} (h : AtBoundary s) (ht : execTick s = .next t) :
    t.pinWrites.filter (fun w => w.pin = .tone) =
      if toneStops s.toneCountdown then
        [⟨.tone, false, Config.toneLoCycle s.freeIndex % lineLengthOf s.cfg (profileOf s) .v⟩]
      else [] := by
  obtain ⟨hs, hp, hb⟩ := h
  rw [execTick_pinWrites hs ht, hp]
  by_cases hstop : toneStops s.toneCountdown = true <;> simp [handlerWrites, hb, hstop]

/-- A boundary that does not stop the tone writes no `TONE` (R191). -/
theorem execTick_no_toneWrite {s t : State} (h : AtBoundary s) (ht : execTick s = .next t)
    (hn : ¬ (s.toneCountdown = 0 ∨ s.toneCountdown = 1)) : ∀ w ∈ t.pinWrites, w.pin ≠ .tone := by
  have hnone := execTick_toneWrites h ht
  rw [if_neg (by rwa [toneStops_iff])] at hnone
  simpa using hnone

/-- Settles O33: the tick is a frame boundary, so the tone after it is the one `Tone.atBoundary` gives for the countdown
it finds. -/
theorem frameBoundaryTone : Obligations.FrameBoundaryTone := by
  intro s hs hp hb
  have hat : AtBoundary s := ⟨hs, hp, hb⟩
  obtain ⟨t, ht⟩ := execTick_total hs fun h => by simp [hp] at h
  have htone := execTick_tone hs ht
  rw [if_pos hat] at htone
  refine ⟨t, ht, fun hn => ?_, fun hn => ?_, fun hn => ?_⟩
  · obtain ⟨hcount, henable, hlatch⟩ := toneOf_eq_iff.mp (htone.trans (Tone.atBoundary_of_neg _ _ hn))
    exact ⟨hcount, henable, hlatch, execTick_no_toneWrite hat ht (by omega)⟩
  · obtain ⟨hcount, henable, hlatch⟩ := toneOf_eq_iff.mp (htone.trans (Tone.atBoundary_of_one_lt _ _ hn))
    exact ⟨hcount, henable, hlatch, execTick_no_toneWrite hat ht (by omega)⟩
  · obtain ⟨hcount, henable, hlatch⟩ := toneOf_eq_iff.mp (htone.trans (Tone.atBoundary_of_stops _ _ hn))
    refine ⟨hcount, henable, hlatch, _, (execTick_toneWrites hat ht).trans (if_pos ?_)⟩
    exact (toneStops_iff _).mpr hn.symm

/-! ### `SET_TONE` -/

/-- Settles O32: `SET_TONE` tests `started`, and enables the tone unless its operand is 0. -/
theorem setTone : Obligations.SetTone := by
  refine fun s n => ⟨fun hs => ?_, fun hs _ hn => ?_, fun hs _ hn => ?_⟩
  · simp [exec, execSetTone, hs]
  · subst hn
    exact execSetTone_started 0 s hs
  · have henable : toneEnableOf n = true := decide_eq_true hn
    simp only [exec, execSetTone_started n s hs, henable, if_true]

/-! ### A stopped tone -/

/-- A boundary does not enable a tone (R190). -/
theorem toneEnable_of_toneOf {s t : State} {c : Prop} [Decidable c]
    (htone : toneOf t = if c then (toneOf s).atBoundary else toneOf s) (hoff : s.toneEnable = false) :
    t.toneEnable = false := by
  have henable := congrArg Tone.enable htone
  split at henable <;> simpa [toneOf, Tone.atBoundary, hoff] using henable

theorem execTick_toneEnable {s t : State} (ht : execTick s = .next t) (hoff : s.toneEnable = false) :
    t.toneEnable = false := by
  cases hs : s.started with
  | false => rw [execTick_stopped s hs] at ht; cases ht; exact hoff
  | true => exact toneEnable_of_toneOf (execTick_tone hs ht) hoff

/-- Only `SET_TONE` with a non-zero operand enables the tone (R190, R195). -/
theorem exec_toneEnable {i : Instr} {s t : State} (hi : ∀ n, n ≠ 0 → i ≠ .setTone n) (ht : exec i s = .next t)
    (hoff : s.toneEnable = false) : t.toneEnable = false := by
  cases i with
  | beginCmd =>
    obtain ⟨-, -, -, rfl⟩ := execBegin_eq_next ht
    exact hoff
  | tick => exact execTick_toneEnable ht hoff
  | setTone n =>
    obtain rfl : n = 0 := by_contra fun hn => hi n hn rfl
    obtain ⟨-, rfl⟩ := execSetTone_eq_next ht
    rfl
  | fbw => cases ht; exact hoff
  | vsyncLine => exact toneEnable_of_toneOf (runHandler_tone (p := .vsync) ht) hoff
  | blankLine => exact toneEnable_of_toneOf (runHandler_tone (p := .blank) ht) hoff
  | activeLine => exact toneEnable_of_toneOf (runHandler_tone (p := .active) ht) hoff
  | render3c | render4c | render5c | render6c | renderAt =>
    obtain ⟨-, rfl⟩ := renderEntry_eq_next ht
    rwa [renderRow_eq]
  | vidLo | vidHi | syncLo | syncHi | toneLo => cases ht; exact hoff

/-- Settles O35: only the `SET_TONE` left out enables the tone, and no operation raises its latch; with the enable at 0
the pin is the latch. -/
theorem stoppedToneStaysSilent : Obligations.StoppedToneStaysSilent := by
  intro s t i ⟨henable, hlatch⟩ hi ht
  obtain ⟨hraise, -⟩ := blockNeverAssertsTone s t i ht
  have henable' : t.toneEnable = false := exec_toneEnable hi ht henable
  have hlatch' : t.outTone = false := by
    rw [← Bool.not_eq_true]
    exact fun h => by simp [hraise h] at hlatch
  exact ⟨⟨henable', hlatch'⟩, by simp [tonePin, henable', hlatch']⟩

end Sys2Proof.Machine
end

section
/-!
PROOF. The duration of a tone (spec 43_frame_and_tone.md R193): how many frame boundaries it lasts, and when they come.
-/

namespace Sys2Proof.Machine

/-! ### How many boundaries a tone lasts -/

/-- A stopped tone is stopped at every boundary (R191, R192). -/
theorem Tone.iterate_atBoundary_stopped (b : Nat) : Tone.atBoundary^[b] ⟨0, false, false⟩ = ⟨0, false, false⟩ :=
  Function.iterate_fixed (Tone.atBoundary_of_stops _ _ (.inr rfl)) b

/-- No boundary ends an indefinite tone (R193). -/
theorem Tone.iterate_atBoundary_of_neg {n : Int} (e : Bool) (l : Level) (h : n < 0) (b : Nat) :
    Tone.atBoundary^[b] ⟨n, e, l⟩ = ⟨n, e, l⟩ :=
  Function.iterate_fixed (Tone.atBoundary_of_neg e l h) b

/-- Before its `n`-th boundary a tone runs on (R193). -/
theorem Tone.iterate_atBoundary_of_lt {n : Int} {b : Nat} (e : Bool) (l : Level) (h : (b : Int) < n) :
    Tone.atBoundary^[b] ⟨n, e, l⟩ = ⟨n - b, e, l⟩ := by
  induction b generalizing n with
  | zero => simp
  | succ b ih =>
    rw [Function.iterate_succ_apply, Tone.atBoundary_of_one_lt e l (by omega), ih (by omega)]
    congr 1
    omega

/-- From its `n`-th boundary on a tone is stopped (R193). -/
theorem Tone.iterate_atBoundary_of_le {n : Int} {b : Nat} (e : Bool) (l : Level) (h1 : 1 ≤ n) (h : n ≤ (b : Int)) :
    Tone.atBoundary^[b] ⟨n, e, l⟩ = ⟨0, false, false⟩ := by
  induction b generalizing n with
  | zero => omega
  | succ b ih =>
    rw [Function.iterate_succ_apply]
    by_cases hn : n = 1
    · rw [Tone.atBoundary_of_stops e l (.inl hn), Tone.iterate_atBoundary_stopped]
    · rw [Tone.atBoundary_of_one_lt e l (by omega), ih (by omega) (by omega)]

/-- The tone after a run of ticks is the one its boundaries leave, taken one after the other (R190). -/
theorem exists_runTicks_tone {s : State} (h : Running s) (n : Nat) :
    ∃ t, runTicks n s = .next t ∧ Running t ∧ t.cfg = s.cfg ∧
      toneOf t = Tone.atBoundary^[boundariesIn n s] (toneOf s) := by
  induction n generalizing s with
  | zero => exact ⟨s, rfl, h, rfl, rfl⟩
  | succ n ih =>
    obtain ⟨u, hu⟩ := exists_execTick h
    obtain ⟨t, ht, hrun, hcfg, htone⟩ := ih (running_of_execTick h hu)
    refine ⟨t, (runTicks_succ n hu).trans ht, hrun, hcfg.trans (execTick_cfg hu), ?_⟩
    rw [htone, execTick_tone h.2 hu, boundariesIn_succ n hu]
    by_cases hb : AtBoundary s
    · rw [if_pos hb, if_pos hb, Nat.add_comm, Function.iterate_succ_apply]
    · rw [if_neg hb, if_neg hb, Nat.zero_add]

/-! ### When the boundaries come -/

/-- The ticks of the lines left in a frame take no boundary (R152). -/
theorem AtLine.exists_end_of_frame {s t : State} {c d : Nat} (h : AtLine s c t) (hd : c + d = s.linesPerFrame.toNat) :
    ∃ u, AtLine s s.linesPerFrame.toNat u ∧ ∀ k, boundariesIn (d + k) t = boundariesIn k u := by
  induction d generalizing c t with
  | zero => exact ⟨t, hd ▸ h, fun k => by rw [Nat.zero_add]⟩
  | succ d ih =>
    obtain ⟨u, hu⟩ := exists_execTick h.running
    obtain ⟨-, -, -, -, -, -, hL, -⟩ := (configRegisters_eq_iff s t).mp h.regs
    have hin : t.currentLine.toNat < t.linesPerFrame.toNat := by rw [h.line, hL]; omega
    obtain ⟨hline, -⟩ := execTick_within h.running.2 hin hu
    obtain ⟨v, hv, hskip⟩ := ih (h.next hu (hline.trans (by rw [h.line]))) (by omega)
    have hnot : ¬ AtBoundary t := fun ⟨_, _, hend⟩ => Nat.not_le.mpr hin hend
    refine ⟨v, hv, fun k => ?_⟩
    rw [Nat.succ_add, boundariesIn_succ _ hu, if_neg hnot, Nat.zero_add, hskip]

/-- The tick after the lines left in a frame is its boundary, and leaves line 1 to come (R152). -/
theorem AtLine.exists_next_boundary {s t : State} {c d : Nat} (h : AtLine s c t) (hg : GeometryWf s)
    (hd : c + d = s.linesPerFrame.toNat) :
    ∃ u, AtLine s 1 u ∧ ∀ k, boundariesIn (d + (k + 1)) t = boundariesIn k u + 1 := by
  obtain ⟨v, hv, hskip⟩ := h.exists_end_of_frame hd
  obtain ⟨hphase, hline⟩ := hv.end_of_frame hg
  obtain ⟨-, -, -, -, -, -, hL, -⟩ := (configRegisters_eq_iff s v).mp hv.regs
  have hb : AtBoundary v := ⟨hv.running.2, hphase, by rw [hline, hL]⟩
  obtain ⟨u, hu⟩ := exists_execTick hv.running
  obtain ⟨hfirst, -⟩ := execTick_atBoundary hb hu
  refine ⟨u, hv.next hu (congrArg BitVec.toNat hfirst), fun k => ?_⟩
  rw [hskip, boundariesIn_succ k hu, if_pos hb, Nat.add_comm]

/-- From line `c` the first boundary comes after `L - c + 1` ticks, and each further one after `L` more (R152). -/
theorem AtLine.exists_boundariesIn {s t : State} {c : Nat} (h : AtLine s c t) (hg : GeometryWf s)
    (hc : c ≤ s.linesPerFrame.toNat) (b : Nat) :
    ∃ n, n + c = (b + 1) * s.linesPerFrame.toNat + 1 ∧ boundariesIn n t = b + 1 := by
  induction b generalizing c t with
  | zero =>
    obtain ⟨d, hd⟩ := Nat.exists_eq_add_of_le hc
    obtain ⟨u, -, hcount⟩ := h.exists_next_boundary hg hd.symm
    exact ⟨d + 1, by omega, hcount 0⟩
  | succ b ih =>
    obtain ⟨d, hd⟩ := Nat.exists_eq_add_of_le hc
    obtain ⟨u, hu, hcount⟩ := h.exists_next_boundary hg hd.symm
    have hL := hg.1.2
    obtain ⟨n, hn, hb⟩ := ih hu (by omega)
    refine ⟨d + (n + 1), ?_, by rw [hcount, hb]⟩
    rw [Nat.succ_mul]
    omega

/-- Under a well-formed geometry the `b`-th boundary comes within `b · L + 1` ticks (R193). -/
theorem exists_boundariesIn {s : State} (h : Running s) (hg : GeometryWf s) (b : Nat) :
    ∃ n, n ≤ b * s.linesPerFrame.toNat + 1 ∧ boundariesIn n s = b := by
  cases b with
  | zero => exact ⟨0, Nat.zero_le _, rfl⟩
  | succ b =>
    have ⟨⟨_, _, _, _, _, hsess⟩, hs⟩ := h
    obtain ⟨-, -, -, hcourse⟩ := hsess hs
    obtain ⟨hle, -⟩ := currentLine_le_of_course hg (hcourse hg)
    obtain ⟨n, hn, hb⟩ := (AtLine.refl h rfl).exists_boundariesIn hg hle b
    exact ⟨n, hn ▸ Nat.le_add_right _ _, hb⟩

/-- `SET_TONE` completes in a running state, keeps it running, and sets the countdown, the enable and, for 0, the latch
(R195). -/
theorem exists_execSetTone {s : State} {n : Int} (h : Running s) (hn : fitsSigned s.cfg.toneW n = true) :
    ∃ t, execSetTone n s = .next t ∧ Running t ∧
      toneOf t = ⟨n, toneEnableOf n, if toneEnableOf n then s.outTone else false⟩ ∧
      t.cfg = s.cfg ∧ configRegisters t = configRegisters s :=
  have ht := execSetTone_started n s h.2
  ⟨_, ht, ⟨inv_of_execSetTone h.1 hn ht, h.2⟩, rfl, rfl, rfl⟩

/-- Settles O34: `SET_TONE` leaves a running state, from which the tone is the one the boundaries leave of the operand,
and the boundaries come frame by frame. -/
theorem toneDuration : Obligations.ToneDuration := by
  intro s n h hn
  obtain ⟨t, ht, hrun, hset, hcfg, hregs⟩ := exists_execSetTone h hn
  refine ⟨t, ht, ?_, fun hg b => ?_⟩
  · rintro j b rfl
    obtain ⟨u, hu, hurun, hucfg, htone⟩ := exists_runTicks_tone hrun j
    rw [hset] at htone
    refine ⟨u, hu, fun h1 hb => ?_, fun h1 hb => ?_, fun h0 => ?_, fun hneg => ?_, fun m hm => ?_⟩
    · obtain ⟨hcount, henable, -⟩ := toneOf_eq_iff.mp (htone.trans (Tone.iterate_atBoundary_of_lt _ _ hb))
      exact ⟨henable.trans (decide_eq_true (by omega)), hcount⟩
    · obtain ⟨hcount, henable, hlatch⟩ := toneOf_eq_iff.mp (htone.trans (Tone.iterate_atBoundary_of_le _ _ h1 hb))
      exact ⟨henable, hlatch, hcount⟩
    · subst h0
      obtain ⟨hcount, henable, hlatch⟩ := toneOf_eq_iff.mp (htone.trans (Tone.iterate_atBoundary_stopped _))
      exact ⟨henable, hlatch, hcount⟩
    · obtain ⟨hcount, henable, -⟩ := toneOf_eq_iff.mp (htone.trans (Tone.iterate_atBoundary_of_neg _ _ hneg _))
      exact ⟨henable.trans (decide_eq_true (by omega)), hcount⟩
    · have hfit : fitsSigned u.cfg.toneW m = true := by rw [hucfg, hcfg, hm]
      obtain ⟨v, hv, hvrun, hvset, -⟩ := exists_execSetTone hurun hfit
      exact ⟨v, hv, (toneOf_eq_iff.mp hvset).1, hvrun⟩
  · obtain ⟨-, -, -, -, -, -, hL, -⟩ := (configRegisters_eq_iff s t).mp hregs
    rw [← hL]
    exact exists_boundariesIn hrun ((geometryWf_congr hregs).mpr hg) b

end Sys2Proof.Machine
end

section
/-!
PROOF. What `FBW` does (spec 44_host_frame_buffer.md R205): one byte of the frame-buffer space is stored, in every state.
-/

namespace Sys2Proof.Machine

/-- `FBW` completes in every state, with no bounds check (R205). -/
theorem exec_fbw (a : Word) (d : Byte) (s : State) : exec (.fbw a d) s = .next (memWrite a d s) := rfl

/-- Settles O37: `FBW` is `memWrite`, and a byte put into the memory is read at its address and at no other. -/
theorem fbwStoresOneByte : Obligations.FbwStoresOneByte := by
  intro s a d
  have hsame : memRead (memWrite a d s).mem a.toNat = d := memRead_put_same s.mem a.toNat d
  have hother : ∀ x, x ≠ a.toNat → memRead (memWrite a d s).mem x = memRead s.mem x :=
    fun x hx => memRead_put_other s.mem a.toNat x d hx.symm
  have hframe : memWrite a d s = { s with mem := (memWrite a d s).mem } := rfl
  exact ⟨memWrite a d s, exec_fbw a d s, hsame, hother, hframe⟩

end Sys2Proof.Machine
end

section
/-!
PROOF. Power-on (spec 70_reset_and_hazards.md R240): the block does nothing until `BEGIN`, and the invariant holds there.
-/

namespace Sys2Proof.Machine

/-- -1, the countdown at power-on, fits every width (R22). -/
theorem fitsSigned_neg_one (bits : Nat) : fitsSigned bits (-1) = true := by
  have hpow : (0 : Int) < 2 ^ (bits - 1) := by positivity
  simp only [fitsSigned, Bool.and_eq_true, decide_eq_true_eq]
  omega

/-- The invariant holds at power-on under every configuration: no byte is written and no session is under way (R240). -/
theorem inv_powerOn (c : Config) : Inv (State.powerOn c) :=
  ⟨reset_mem_wf, Nat.two_pow_pos _, fitsSigned_neg_one _, rfl, rfl, fun hs => nomatch hs⟩

/-- Settles O42: reset is power-on under the configuration of log 1. -/
theorem resetHasTheInvariant : Obligations.ResetHasTheInvariant := inv_powerOn Config.initial

/-- `SET_TONE` before `BEGIN` is refused (R195). -/
theorem execSetTone_stopped (n : Int) (s : State) (h : s.started = false) :
    execSetTone n s = .refused .setToneBeforeBegin := by
  simp [execSetTone, h]

/-- Settles O9: the values are those of the power-on column; `TICK` and `SET_TONE` test `started` first; no operation of a
started block clears it. -/
theorem powerOnState : Obligations.PowerOnState := by
  refine ⟨fun c => ⟨rfl, rfl, rfl, rfl, rfl, rfl, rfl⟩, rfl, rfl, rfl, rfl, rfl, rfl, rfl, fun s hs => ⟨?_, fun n => ?_⟩,
    fun i s t ht hs => exec_keeps_started hs ht⟩
  · exact execTick_stopped s hs
  · exact execSetTone_stopped n s hs

end Sys2Proof.Machine
end

section
/-!
PROOF. `SYNC` after a late pulse (spec 70_reset_and_hazards.md R254; 42_render_and_pins.md R173, R177): when the pulse of
a line is late, and what the latch and the level of `SYNC` are on the line and on those after it.
-/

namespace Sys2Proof.Machine

/-- The length of a line is the one the profile gives for its mode (R177). -/
theorem lineLength_of_execTick {s t : State} (hs : s.started = true) (ht : execTick s = .next t) :
    lineLength t = lineLengthOf s.cfg (profileOf s) t.syncMode := by
  obtain ⟨u, hu, rfl⟩ := execTick_cases hs ht
  rw [tickReturn_eq, runHandler_frame hu]
  rfl

/-- A tick takes no new index of the free values (log 25). -/
theorem execTick_freeIndex {s t : State} (hs : s.started = true) (ht : execTick s = .next t) :
    t.freeIndex = s.freeIndex := by
  obtain ⟨u, hu, rfl⟩ := execTick_cases hs ht
  rw [tickReturn_freeIndex, runHandler_frame hu]
  rfl

/-- The pulse of a line is late when it does not end before the line does (R254, log 10). -/
theorem execTick_syncLate {s t : State} (hs : s.started = true) (ht : execTick s = .next t) :
    t.syncLate = !pulseFits t := by
  obtain ⟨u, -, rfl⟩ := execTick_cases hs ht
  have hfits : pulseFits (tickReturn s.phase u) = pulseFits u := by rw [tickReturn_eq]; rfl
  rw [tickReturn_syncLate, hfits]

/-- A pulse is late exactly when its width reaches the length of its line (R254). -/
theorem execTick_syncLate_iff {s t : State} (hs : s.started = true) (ht : execTick s = .next t) :
    t.syncLate = true ↔ lineLengthOf s.cfg (profileOf s) t.syncMode ≤ syncWidthOf (profileOf s) t.syncMode := by
  rw [execTick_syncLate hs ht, ← lineLength_of_execTick hs ht, ← syncWidth_of_execTick hs ht]
  simp [pulseFits]

/-- Settles O24: the return of a tick marks a late pulse, and the entry of the next frees `SYNC` where one was marked or
it was free. -/
theorem collidedSyncIsFree : Obligations.CollidedSyncIsFree := by
  intro s hs hsel
  obtain ⟨t, ht⟩ := execTick_total hs hsel
  have hlatch := execTick_outSync hs ht
  refine ⟨t, ht, ?_, ?_, fun hfree => ⟨fun cyc => syncPin_free t cyc hfree, ?_⟩,
    fun hfree => ⟨fun cyc => syncPin_settled t cyc hfree, ?_⟩⟩
  · rw [execTick_syncLate_iff hs ht]
    cases t.syncMode <;> rfl
  · rw [execTick_syncFree hs ht, Bool.or_eq_true]
  · rw [hlatch, if_pos hfree, execTick_freeIndex hs ht]
  · rw [hlatch, hfree, execTick_syncLate hs ht]
    rfl

end Sys2Proof.Machine
end

section
/-!
PROOF. No cycle parameter reaches the Device Context (spec 70_reset_and_hazards.md R260): a tick under another
configuration takes the same row of the transition table, and leaves the same context.
-/

namespace Sys2Proof.Machine

/-- The return of a tick adds to the context what the context before it says (R133, R260). -/
theorem contextOf_tickReturn (p : Phase) (s : State) :
    contextOf (tickReturn p s) = contextOf (tickReturn p (contextOf s)) := by
  simp [tickReturn_eq, contextOf]

theorem contextOf_tickReturn_congr {u v : State} (p : Phase) (h : contextOf u = contextOf v) :
    contextOf (tickReturn p u) = contextOf (tickReturn p v) := by
  rw [contextOf_tickReturn, h, ← contextOf_tickReturn]

/-- The row a tick takes is chosen by registers of the context, and no row writes one of them from a cycle count. Only
`frameCount` depends on the configuration, by its width (R135, R260). -/
theorem contextOf_execTick_congr {s t u : State} {c : Config} (hs : s.started = true) (hc : c.frameW = s.cfg.frameW)
    (ht : execTick s = .next t) (hu : execTick { s with cfg := c } = .next u) : contextOf t = contextOf u := by
  rcases tickRow_cases s with ⟨hp, hb⟩ | ⟨hp, hb, hv⟩ | ⟨hp, hb, hv⟩ | ⟨hp, hl⟩ | ⟨hp, hl, hw⟩ | ⟨hp, hl, hw⟩ | hp
  · rw [execTick_boundary s hs hp hb] at ht; cases ht
    rw [execTick_boundary { s with cfg := c } hs hp hb] at hu; cases hu
    refine contextOf_tickReturn_congr .vsync ?_
    rw [hc]
    rfl
  · rw [execTick_leave s hs hp hb hv] at ht; cases ht
    rw [execTick_leave { s with cfg := c } hs hp hb hv] at hu; cases hu
    exact contextOf_tickReturn_congr .vsync rfl
  · rw [execTick_vsyncStay s hs hp hb hv] at ht; cases ht
    rw [execTick_vsyncStay { s with cfg := c } hs hp hb hv] at hu; cases hu
    exact contextOf_tickReturn_congr .vsync rfl
  · rw [execTick_arm s hs hp hl] at ht; cases ht
    rw [execTick_arm { s with cfg := c } hs hp hl] at hu; cases hu
    exact contextOf_tickReturn_congr .blank rfl
  · rw [execTick_wrap s hs hp hl hw] at ht; cases ht
    rw [execTick_wrap { s with cfg := c } hs hp hl hw] at hu; cases hu
    exact contextOf_tickReturn_congr .blank rfl
  · rw [execTick_blankStay s hs hp hl hw] at ht; cases ht
    rw [execTick_blankStay { s with cfg := c } hs hp hl hw] at hu; cases hu
    exact contextOf_tickReturn_congr .blank rfl
  · rw [execTick_active s hs hp (selValid_of_execTick hs hp ht)] at ht; cases ht
    rw [execTick_active { s with cfg := c } hs hp (selValid_of_execTick hs hp hu)] at hu; cases hu
    exact contextOf_tickReturn_congr .active rfl

/-- Settles O26: before `BEGIN` neither tick does anything; after it both complete, as each table has the index. -/
theorem tickReadsNoTime : Obligations.TickReadsNoTime := by
  intro s c hc hsel
  by_cases hs : s.started = true
  · obtain ⟨t, ht⟩ := execTick_total hs fun hp => (hsel hp).1
    obtain ⟨u, hu⟩ := execTick_total (s := { s with cfg := c }) hs fun hp => (hsel hp).2
    exact ⟨t, u, ht, hu, contextOf_execTick_congr hs hc ht hu⟩
  · have hstopped := Bool.eq_false_iff.mpr hs
    exact ⟨s, { s with cfg := c }, execTick_stopped s hstopped, execTick_stopped { s with cfg := c } hstopped, rfl⟩

end Sys2Proof.Machine
end

section
/-!
PROOF. Under R250 (W3) the work of a line ends within it (spec 70_reset_and_hazards.md R252, R261): the pulse, the pixels
of an active line and the stop of a tone each come before the end of the line.
-/

namespace Sys2Proof.Machine

/-- Every pulse is shorter than its line (W3). -/
theorem TimingWf.syncWidth_lt {s : State} (h : TimingWf s) (m : SyncMode) :
    syncWidthOf (profileOf s) m < lineLengthOf s.cfg (profileOf s) m := by
  obtain ⟨hdelay, hpixels, hv⟩ := h
  cases m with
  | h => exact (hdelay.trans (Nat.le_add_right _ _)).trans_lt hpixels
  | v => exact hv

/-- Under a well-formed geometry an active line has mode `H` (R151). -/
theorem syncMode_of_active {s t : State} (h : Running s) (hg : GeometryWf s) (hp : s.phase = .active)
    (ht : execTick s = .next t) : t.syncMode = .h := by
  obtain ⟨⟨-, -, -, -, -, hsess⟩, hs⟩ := h
  obtain ⟨-, -, -, hcourse⟩ := hsess hs
  obtain ⟨-, hm, -⟩ := (hcourse hg).2.2 hp
  rw [execTick_active s hs hp (selValid_of_execTick hs hp ht)] at ht
  cases ht
  simpa using hm

/-- The live strategy has a cost of at least one cycle (R109, log 16). -/
theorem one_le_liveCost {s : State} (hc : ConfigRegs s) : 1 ≤ liveCost s := by
  have ⟨⟨_, _, _, hcosts, _⟩, _⟩ := hc
  have hentry := List.getElem?_eq_getElem (selValid_of_configRegs hc)
  rw [liveCost, costOf_eq hentry]
  exact hcosts _ (List.mem_of_getElem? hentry)

/-- What the handler writes comes before the end of its line (W3; R174 for the stop of a tone). -/
theorem cycle_lt_of_mem_handlerWrites {s t : State} {w : PinWrite} (h : Running s) (hg : GeometryWf s)
    (htime : TimingWf s) (ht : execTick s = .next t) (hw : w ∈ handlerWrites s s.phase) :
    w.cycle < lineLengthOf s.cfg (profileOf s) t.syncMode := by
  cases hp : s.phase with
  | vsync =>
    rw [hp, handlerWrites] at hw
    split at hw
    · next hb =>
      obtain ⟨-, -, hmode⟩ := execTick_atBoundary ⟨h.2, hp, hb.1⟩ ht
      obtain rfl := List.mem_singleton.mp hw
      rw [hmode]
      exact Nat.mod_lt _ (Nat.zero_lt_of_lt (htime.syncWidth_lt .v))
    · cases hw
  | blank =>
    rw [hp] at hw
    cases hw
  | active =>
    have ⟨⟨_, _, _, _, _, hsess⟩, hs⟩ := h
    obtain ⟨hcr, -⟩ := hsess hs
    have ⟨⟨_, _, _, _, hgroup, _⟩, _⟩ := hcr
    rw [hp] at hw
    obtain ⟨-, hend, -⟩ := cycle_of_mem_renderWrites hgroup (one_le_liveCost hcr) hw
    rw [rowPixels_length] at hend
    rw [syncMode_of_active h hg hp ht]
    exact hend.trans_lt htime.2.1

/-- Settles O50: the writes of a line are the rise of `SYNC` at cycle 0, those of the handler, and the fall of `SYNC`. -/
theorem workEndsWithinTheLine : Obligations.WorkEndsWithinTheLine := by
  intro s h hg htime
  obtain ⟨t, ht⟩ := exists_execTick h
  have hpulse := htime.syncWidth_lt t.syncMode
  have hall : ∀ w ∈ t.pinWrites, w.cycle < lineLengthOf s.cfg (profileOf s) t.syncMode := by
    intro w hw
    rw [execTick_pinWrites h.2 ht, List.mem_cons, List.mem_append, List.mem_singleton,
      syncWidth_of_execTick h.2 ht] at hw
    rcases hw with rfl | hw | rfl
    · exact Nat.zero_lt_of_lt hpulse
    · exact cycle_lt_of_mem_handlerWrites h hg htime ht hw
    · exact hpulse
  refine ⟨t, ht, fun w hw => (hall w hw).trans_eq ?_⟩
  cases t.syncMode <;> rfl

end Sys2Proof.Machine
end

section
/-!
PROOF. The frames of a geometry with `V = 0` or `V ≥ L` (spec 70_reset_and_hazards.md R251 (a)): no line but the boundary
does anything, so the machine stays in `VSYNC` and counts frames of `L` lines.
-/

namespace Sys2Proof.Machine

/-- R251 (a): no line that `VSYNC` finds inside a frame is line `V`. -/
def NoVsyncEnd (s : State) : Prop := s.vsyncEndLine = 0 ∨ s.linesPerFrame.toNat ≤ s.vsyncEndLine.toNat

/-- `t` is a state of the session of `s` that stays in `VSYNC`: its next line has number `j`, not 0. -/
structure InVsync (s : State) (j : Nat) (t : State) : Prop where
  started : t.started = true
  phase : t.phase = .vsync
  cfg : t.cfg = s.cfg
  regs : configRegisters t = configRegisters s
  line : t.currentLine.toNat = j
  first : 1 ≤ j

theorem InVsync.refl {s : State} {j : Nat} (hs : s.started = true) (hp : s.phase = .vsync)
    (hj : s.currentLine.toNat = j) (h1 : 1 ≤ j) : InVsync s j s :=
  ⟨hs, hp, rfl, rfl, hj, h1⟩

theorem InVsync.next {s t u : State} {j i : Nat} (h : InVsync s j t) (ht : execTick t = .next u)
    (hp : u.phase = .vsync) (hi : u.currentLine.toNat = i) (h1 : 1 ≤ i) : InVsync s i u :=
  ⟨exec_keeps_started (i := .tick) h.started ht, hp, (execTick_cfg ht).trans h.cfg,
    (execTick_configRegisters ht).trans h.regs, hi, h1⟩

/-- A line inside the frame is not line `V`, so nothing happens on it (R135). -/
theorem InVsync.tick {s t : State} {j : Nat} (h : InVsync s j t) (hV : NoVsyncEnd s) (hj : j < s.linesPerFrame.toNat) :
    ∃ u, execTick t = .next u ∧ InVsync s (j + 1) u ∧ u.syncMode = t.syncMode ∧ u.frameCount = t.frameCount := by
  obtain ⟨-, -, -, -, -, hVt, hLt, -⟩ := (configRegisters_eq_iff s t).mp h.regs
  have hin : t.currentLine.toNat < t.linesPerFrame.toNat := by rwa [h.line, hLt]
  have hne : t.currentLine.toNat ≠ t.vsyncEndLine.toNat := by
    rw [hVt, h.line]
    rcases hV with hzero | hlate
    · rw [hzero]
      exact Nat.ne_of_gt h.first
    · exact Nat.ne_of_lt (hj.trans_le hlate)
  have ht := execTick_vsyncStay t h.started h.phase hin hne
  obtain ⟨hnext, -⟩ := execTick_within h.started hin ht
  exact ⟨_, ht, h.next ht (by simp [h.phase]) (hnext.trans (by rw [h.line])) (Nat.le_add_left 1 j),
    by simp, by simp⟩

/-- The first line of a frame is its boundary (R135, R152). -/
theorem InVsync.boundary {s t : State} (h : InVsync s s.linesPerFrame.toNat t) :
    ∃ u, execTick t = .next u ∧ InVsync s 1 u ∧ u.syncMode = .v ∧
      u.frameCount = (t.frameCount + 1) % 2 ^ s.cfg.frameW := by
  obtain ⟨-, -, -, -, -, -, hLt, -⟩ := (configRegisters_eq_iff s t).mp h.regs
  have hend : t.linesPerFrame.toNat ≤ t.currentLine.toNat := by rw [h.line, hLt]
  have ht := execTick_boundary t h.started h.phase hend
  obtain ⟨hline, hframe, hmode⟩ := execTick_atBoundary ⟨h.started, h.phase, hend⟩ ht
  exact ⟨_, ht, h.next ht (by simp [h.phase]) (congrArg BitVec.toNat hline) le_rfl, hmode, h.cfg ▸ hframe⟩

/-- The first `j` lines of a frame, from the end of the one before. -/
theorem InVsync.frame {s t : State} (h : InVsync s s.linesPerFrame.toNat t) (hV : NoVsyncEnd s) {j : Nat} (h1 : 1 ≤ j)
    (hj : j ≤ s.linesPerFrame.toNat) :
    ∃ u, runTicks j t = .next u ∧ InVsync s j u ∧ u.syncMode = .v ∧
      u.frameCount = (t.frameCount + 1) % 2 ^ s.cfg.frameW := by
  induction j, h1 using Nat.le_induction with
  | base =>
    obtain ⟨u, hu, hat, hmode, hframe⟩ := h.boundary
    exact ⟨u, runTicks_succ 0 hu, hat, hmode, hframe⟩
  | succ j h1 ih =>
    obtain ⟨u, hu, hat, hmode, hframe⟩ := ih (Nat.le_of_succ_le hj)
    obtain ⟨v, hv, hat', hmode', hframe'⟩ := hat.tick hV hj
    refine ⟨v, ?_, hat', hmode'.trans hmode, hframe'.trans hframe⟩
    rw [runTicks_add, hu, andThen_next, runTicks_succ 0 hv, runTicks_zero]

/-- Whole frames, each `L` ticks (R251). -/
theorem InVsync.frames {s t : State} (h : InVsync s s.linesPerFrame.toNat t) (hV : NoVsyncEnd s)
    (hf : t.frameCount < 2 ^ s.cfg.frameW) (n : Nat) :
    ∃ u, runTicks (n * s.linesPerFrame.toNat) t = .next u ∧ InVsync s s.linesPerFrame.toNat u ∧
      u.frameCount = (t.frameCount + n) % 2 ^ s.cfg.frameW := by
  induction n with
  | zero => exact ⟨t, by simp, h, (Nat.mod_eq_of_lt hf).symm⟩
  | succ n ih =>
    obtain ⟨u, hu, hat, hframe⟩ := ih
    obtain ⟨v, hv, hat', -, hframe'⟩ := hat.frame hV hat.first le_rfl
    refine ⟨v, by rw [Nat.succ_mul, runTicks_add, hu, andThen_next, hv], hat', ?_⟩
    rw [hframe', hframe, Nat.mod_add_mod, Nat.add_assoc]

/-- Settles O52: `i + 1` ticks are `i / L` whole frames and the first `i % L + 1` lines of the next. -/
theorem degenerateVsyncStays : Obligations.DegenerateVsyncStays := by
  intro s m hs hp hL h1 hV hf
  have hat := InVsync.refl hs hp (congrArg BitVec.toNat hL) h1
  refine ⟨fun j => ?_, ?_⟩
  · cases j with
    | zero => exact ⟨s, rfl, hp, fun h => nomatch h⟩
    | succ i =>
      obtain ⟨u, hu, hatu, -⟩ := hat.frames hV hf (i / s.linesPerFrame.toNat)
      obtain ⟨v, hv, hatv, hmode, -⟩ := hatu.frame hV (Nat.le_add_left 1 _) (Nat.mod_lt i h1)
      refine ⟨v, ?_, hatv.phase, fun _ => hmode⟩
      rw [← Nat.div_add_mod' i s.linesPerFrame.toNat, Nat.add_assoc, runTicks_add, hu, andThen_next, hv]
  · obtain ⟨u, hu, hatu, hframe⟩ := hat.frames hV hf m
    exact ⟨u, hu, BitVec.eq_of_toNat_eq hatu.line, hframe⟩

end Sys2Proof.Machine
end

section
/-!
PROOF. The written-out words of 95_test_vectors.md section 2.1, from the round trip of the encoding.
-/

namespace Sys2Proof

/-- Where an operation survives the round trip, the word that encodes it decodes to it. -/
theorem decodeCommand_of_encode {w : CmdWord} {i : Instr} (hd : decode (encode i) = some i)
    (he : encode i = .command w) : decodeCommand w = some i := by
  rwa [he] at hd

/-- Settles O1: each command word that decodes is the encoding of its operation, so the round trip reads its operands
back; the codes and the reserved words have no operand to read. -/
theorem decodesWrittenWords : Obligations.DecodesWrittenWords := by
  refine ⟨decodeCommand_of_encode (decode_encode_beginCmd .ntsc 16 4 0x0100) ?_,
    decodeCommand_of_encode (decode_encode_beginCmd .pal 128 96 0x0200) ?_,
    decodeCommand_of_matches_tick Laws.RowMatch.tick,
    decodeCommand_of_encode (decode_encode_setTone (n := -1) ?_) ?_,
    decodeCommand_of_encode (decode_encode_fbw 0x0100 0xA5) ?_, ?_, ?_, ?_, ?_, ?_, ?_, ?_⟩
  all_goals decide

end Sys2Proof
end
